-- ==== Sys2Proof/Word.lean ====
section
/-! DEFINITION. The words and small index types the Zelcora ZH-26 is described with (00_scope.md "Terms and
abbreviations", chapter 11 for the bytes). -/

namespace Sys2Proof

/-- One byte of a telegram or of the configuration image. -/
abbrev Byte := BitVec 8

/-- A bid number, 0–255, counting round from 255 to 0 (R61). -/
abbrev BidNumber := BitVec 8

/-- The 16-bit digest of a shared section (R196). -/
abbrev Digest := BitVec 16

/-- An address on the Contour bus, 0–15; 14 and 15 are service stations. -/
abbrev Addr := Fin 16

/-- A pump-house station, 0–13. -/
abbrev Station := Fin 14

/-- A pump, which is also its channel number (R55). -/
abbrev Pump := Fin 6

/-- A rising main. -/
abbrev Main := Fin 8

/-- A class: 0 FIRE, 1 CRITICAL, 2 NORMAL, 3 OFF-PEAK (R86). -/
abbrev Class := Fin 4

/-- A station as a bus address. -/
def Station.addr (a : Station) : Addr := ⟨a.val, Nat.lt_trans a.isLt (by decide)⟩

/-- The pump-house station behind a bus address; none for the service stations 14 and 15. -/
def Addr.station? (a : Addr) : Option Station :=
  if h : a.val < 14 then some ⟨a.val, h⟩ else none

/-- The six pumps in ascending order. -/
def allPumps : List Pump := [0, 1, 2, 3, 4, 5]

/-- The fourteen pump-house stations in ascending order. -/
def allStations : List Station := [0, 1, 2, 3, 4, 5, 6, 7, 8, 9, 10, 11, 12, 13]

end Sys2Proof
end

