-- ==== Sys2Proof/Config.lean ====
section
/-! DEFINITION. What the ZH-26 itself fixes: capacities, fixed periods and the ends of its counters. What a site
fixes comes from the configuration image and is state (R199). The spec leaves no result of any command without a
value, so there is no free value here. -/

namespace Sys2Proof.Config

/-- Entries the claim table holds (R2). -/
def tableCapacity : Nat := 48
/-- Telegrams the transmit queue holds, the one on the bus included (R133). -/
def queueCapacity : Nat := 16
/-- Records the fault file holds (R164). -/
def faultCapacity : Nat := 8
/-- Levels in a full sample window (R109). -/
def windowLength : Nat := 8
/-- Consecutive out-of-range samples that fail an input (R110). -/
def sensorFailureCount : Nat := 3
/-- The end of the check-error window count (R128). -/
def checkErrorLimit : Nat := 16
/-- The end of the count of consecutive unacknowledged telegrams (R130). -/
def unackedLimit : Nat := 3
/-- Sample timer period in ms (R107). -/
def samplePeriod : Nat := 250
/-- Hold-over time in ms (R112). -/
def holdOverTime : Nat := 4000
/-- Length of an alarm pulse in ms (R174). -/
def pulseTime : Nat := 2000
/-- Roll periods in the silence limit, the listen period and the start-up allowance (R13, R152, R123). -/
def silencePeriods : Nat := 3
/-- The end of a statistic counter (R190). -/
def counterMax : Nat := 65535
/-- The end of a start duration in ms (R57). -/
def startDurationMax : Nat := 65535
/-- The end of a repeat count (R164). -/
def repeatMax : Nat := 255
/-- The end of a record's first time in s (11.3). -/
def firstTimeMax : Nat := 65535
/-- The end of the total run time in s (R57). -/
def totalRunMax : Nat := 4294967295
/-- Bytes of an image of format 1 (11.4). -/
def imageLength : Nat := 151
/-- The byte a flash that does not answer presents (R193). -/
def silentFlash : Byte := 255#8
/-- Entries of a CLAIMS page (R188). -/
def claimsPage : Nat := 6
/-- Records of a ROSTER page (R189). -/
def rosterPage : Nat := 7
/-- MODEL'S OWN, log 6: how many rounds of evaluation and picking one step may take. -/
def settleRounds : Nat := 40

end Sys2Proof.Config
end

