-- ==== Sys2Proof/Syntax.lean ====
section
/-! DEFINITION. The commands of the ZH-26, one constructor per row of spec/opcode_table.json. The table gives the
rows no operand bits; each operand is the data that the row's rule needs. A received telegram arrives as its source
address and its body bytes (bytes 3 to length − 3 of 11.1), so that a body of the wrong length and a code outside
its list can be spelt (R200). -/

namespace Sys2Proof

/-- The two level inputs (R107): A the suction tank, B the delivery tank. -/
inductive LevelInput where
  | a
  | b
  deriving DecidableEq, Repr

/-- A command: one step of the station, whole and indivisible. -/
inductive Instr where
  /-- RESET (R145): the five strap pins as they stand at the latch (R192). -/
  | reset (address : Addr) (polarityHigh : Bool)
  /-- IMAGE_READ_COMPLETE (R148): the bytes the flash presented, from address 0 (R193). -/
  | imageReadComplete (image : List Byte)
  /-- BUS_IDLE_ARBITRATION (R131): the telegrams, as bytes, that the other stations offer at this idle. -/
  | busIdleArbitration (others : List (List Byte))
  /-- TELEGRAM_CARRIED (R126): the own telegram on the bus completes. -/
  | telegramCarried
  /-- ACKNOWLEDGE_SLOT_END (R130): whether another station signalled in the slot of the own telegram. -/
  | acknowledgeSlotEnd (acknowledged : Bool)
  /-- CHECK_FAILED (R127): a telegram or burst on the line failed its check at this receiver. -/
  | checkFailed
  /-- BID_RECEIVED (R28). -/
  | bidReceived (src : Addr) (body : List Byte)
  /-- VETO_RECEIVED (R35). -/
  | vetoReceived (src : Addr) (body : List Byte)
  /-- COMMIT_RECEIVED (R40). -/
  | commitReceived (src : Addr) (body : List Byte)
  /-- RUN_RECEIVED (R42). -/
  | runReceived (src : Addr) (body : List Byte)
  /-- DROP_RECEIVED (R44). -/
  | dropReceived (src : Addr) (body : List Byte)
  /-- ROLL_RECEIVED (R18). -/
  | rollReceived (src : Addr) (body : List Byte)
  /-- ASK_RECEIVED (R185). -/
  | askReceived (src : Addr) (body : List Byte)
  /-- HOLD_RECEIVED (R181). -/
  | holdReceived (src : Addr) (body : List Byte)
  /-- FREE_RECEIVED (R181). -/
  | freeReceived (src : Addr) (body : List Byte)
  /-- SHED_RECEIVED (R182). -/
  | shedReceived (src : Addr) (body : List Byte)
  /-- CLEAR_RECEIVED (R183). -/
  | clearReceived (src : Addr) (body : List Byte)
  /-- PURGE_RECEIVED (R184). -/
  | purgeReceived (src : Addr) (body : List Byte)
  /-- ANSWER_RECEIVED (R127). -/
  | answerReceived (src : Addr) (body : List Byte)
  /-- UNKNOWN_KIND_RECEIVED (R127): a kind priority and kind variant that name no kind. -/
  | unknownKindReceived (priority : BitVec 4) (variant : Byte) (src : Addr) (body : List Byte)
  /-- ROLL_TIMER_EXPIRY (R143). -/
  | rollTimerExpiry
  /-- LISTEN_TIMER_EXPIRY (R152). -/
  | listenTimerExpiry
  /-- SILENCE_EXPIRY (R13) of one peer. -/
  | silenceExpiry (peer : Station)
  /-- CONTEST_TIMER_EXPIRY (R38) of one channel. -/
  | contestTimerExpiry (pump : Pump)
  /-- START_CONFIRM_EXPIRY (R64) of one channel. -/
  | startConfirmExpiry (pump : Pump)
  /-- STOP_CONFIRM_EXPIRY (R70) of one channel. -/
  | stopConfirmExpiry (pump : Pump)
  /-- REST_EXPIRY (R72) of one channel. -/
  | restExpiry (pump : Pump)
  /-- MINIMUM_RUN_MET (R65) at one channel. -/
  | minimumRunMet (pump : Pump)
  /-- RETRY_HOLD_EXPIRY (R95) of one request. -/
  | retryHoldExpiry (pump : Pump)
  /-- GUARD_INTERVAL_PASSED (R97) on one main. -/
  | guardIntervalPassed (main : Main)
  /-- SAMPLE_TIMER_EXPIRY (R107) of one input, with the sample taken, 0–4095. -/
  | sampleTimerExpiry (input : LevelInput) (sample : BitVec 12)
  /-- HOLD_OVER_EXPIRY (R113). -/
  | holdOverExpiry
  /-- BLIND_RUN_LIMIT_REACHED (R120). -/
  | blindRunLimitReached
  /-- START_UP_ALLOWANCE_EXPIRY (R123). -/
  | startUpAllowanceExpiry
  /-- PULSE_TIMER_EXPIRY (R176). -/
  | pulseTimerExpiry
  /-- FEEDBACK_RISES (R63) at one channel. -/
  | feedbackRises (pump : Pump)
  /-- FEEDBACK_FALLS (R70) at one channel. -/
  | feedbackFalls (pump : Pump)
  /-- OVERLOAD_ASSERTED (R73) at one channel. -/
  | overloadAsserted (pump : Pump)
  /-- OVERLOAD_RELEASED (R73) at one channel. -/
  | overloadReleased (pump : Pump)
  /-- AUTO_RELEASED (R76) at one channel. -/
  | autoReleased (pump : Pump)
  /-- AUTO_ASSERTED (R78) at one channel. -/
  | autoAsserted (pump : Pump)
  /-- GANG_STOP_ASSERTED (R79). -/
  | gangStopAsserted
  /-- GANG_STOP_RELEASED (R79). -/
  | gangStopReleased
  /-- FIRE_DEMAND_CHANGE (R86): the level the line changes to. -/
  | fireDemandChange (asserted : Bool)
  /-- OFF_PEAK_CHANGE (R90): the level the line changes to. -/
  | offPeakChange (asserted : Bool)
  /-- ACK_RISES (R171). -/
  | ackRises
  /-- MUTE_ASSERTED (R177). -/
  | muteAsserted
  /-- MUTE_RELEASED (R177). -/
  | muteReleased
  deriving DecidableEq, Repr

end Sys2Proof
end

