-- ==== Sys2Proof/WellFormed.lean ====
section
/-! DEFINITION. Which command terms the outside world can send: a telegram on the line has 6 to 64 bytes (R127), so
a body 1 to 59 (11.1); the flash is read for the 151 bytes of a format-1 image (R193); a kind priority and variant
that name no kind (R200). The machine is total on the other terms as well. -/

namespace Sys2Proof

/-- A body that fits a telegram of 6 to 64 bytes: three bytes of header before it, two of check after it. -/
def bodyFits (body : List Byte) : Bool := 1 ≤ body.length && body.length ≤ 59

/-- Whether a kind priority and kind variant name a kind of 11.1. -/
def namesKind (priority : BitVec 4) (variant : Byte) : Bool :=
  if priority = 4#4 then variant.toNat ≤ 4 else priority.toNat ≤ 8 && variant.toNat = 0

/-- The operand checks of a command. -/
def WellFormed : Instr → Bool
  | .imageReadComplete image => image.length = Config.imageLength
  | .busIdleArbitration others => others.all (fun t => 6 ≤ t.length && t.length ≤ 64)
  | .bidReceived _ body => bodyFits body
  | .vetoReceived _ body => bodyFits body
  | .commitReceived _ body => bodyFits body
  | .runReceived _ body => bodyFits body
  | .dropReceived _ body => bodyFits body
  | .rollReceived _ body => bodyFits body
  | .askReceived _ body => bodyFits body
  | .holdReceived _ body => bodyFits body
  | .freeReceived _ body => bodyFits body
  | .shedReceived _ body => bodyFits body
  | .clearReceived _ body => bodyFits body
  | .purgeReceived _ body => bodyFits body
  | .answerReceived _ body => bodyFits body
  | .unknownKindReceived priority variant _ body => bodyFits body && !namesKind priority variant
  | .reset _ _ => true
  | .telegramCarried => true
  | .acknowledgeSlotEnd _ => true
  | .checkFailed => true
  | .rollTimerExpiry => true
  | .listenTimerExpiry => true
  | .silenceExpiry _ => true
  | .contestTimerExpiry _ => true
  | .startConfirmExpiry _ => true
  | .stopConfirmExpiry _ => true
  | .restExpiry _ => true
  | .minimumRunMet _ => true
  | .retryHoldExpiry _ => true
  | .guardIntervalPassed _ => true
  | .sampleTimerExpiry _ _ => true
  | .holdOverExpiry => true
  | .blindRunLimitReached => true
  | .startUpAllowanceExpiry => true
  | .pulseTimerExpiry => true
  | .feedbackRises _ => true
  | .feedbackFalls _ => true
  | .overloadAsserted _ => true
  | .overloadReleased _ => true
  | .autoReleased _ => true
  | .autoAsserted _ => true
  | .gangStopAsserted => true
  | .gangStopReleased => true
  | .fireDemandChange _ => true
  | .offPeakChange _ => true
  | .ackRises => true
  | .muteAsserted => true
  | .muteReleased => true

end Sys2Proof
end

