-- ==== Sys2Proof/Decode.lean ====
section
/-! DEFINITION. The telegrams of the Contour bus: the fields of each body (11.2), their codes, the check word (R200),
the reading of received bytes into a command, and after it the encoder of the station's own telegrams.
decodeTableWord stands at the end: no row of spec/opcode_table.json gives bits (log 20). -/

namespace Sys2Proof

/-! ## The fields of the bodies -/

/-- State of a claim (R1). -/
inductive ClaimState where
  | held
  | starting
  | running
  deriving DecidableEq, Repr

/-- Refusal reasons (R28). -/
inductive RefusalReason where
  | duplicate
  | membership
  | mainBusy
  | budget
  | reserve
  | tableFull
  deriving DecidableEq, Repr

/-- Drop reasons (R26). -/
inductive DropReason where
  | stopped
  | shed
  | trip
  | startFail
  | withdrawn
  | localEnd
  deriving DecidableEq, Repr

/-- Station mode as a ROLL states it (R10). -/
inductive RollMode where
  | listen
  | active
  | isolated
  deriving DecidableEq, Repr

/-- A level as a ROLL states it: centimetres or invalid. Absent is the Option around it. -/
inductive Level where
  | cm (n : Nat)
  | invalid
  deriving DecidableEq, Repr

/-- Topics of ASK (R179). -/
inductive Topic where
  | station
  | claims
  | channels
  | faults
  | counters
  | roster
  deriving DecidableEq, Repr

/-- Target of a service telegram (00_scope.md "Target field"). -/
inductive Target where
  | one (a : Station)
  | all
  deriving DecidableEq, Repr

/-- Body of a BID or a COMMIT. -/
structure ClaimFields where
  pump : Pump
  main : Main
  load : Nat
  cls : Class
  bid : BidNumber
  deriving DecidableEq, Repr

/-- Body of a VETO. -/
structure VetoFields where
  owner : Station
  pump : Pump
  bid : BidNumber
  reason : RefusalReason
  deriving DecidableEq, Repr

/-- Body of a RUN. -/
structure RunFields where
  pump : Pump
  main : Main
  load : Nat
  cls : Class
  bid : BidNumber
  manual : Bool
  island : Bool
  deriving DecidableEq, Repr

/-- Body of a DROP. -/
structure DropFields where
  pump : Pump
  reason : DropReason
  deriving DecidableEq, Repr

/-- Claim descriptor of a ROLL (11.2). -/
structure Descriptor where
  pump : Pump
  main : Main
  load : Nat
  cls : Class
  state : ClaimState
  bid : BidNumber
  manual : Bool
  island : Bool
  deriving DecidableEq, Repr

/-- Body of a ROLL (R140). -/
structure RollBody where
  mode : RollMode
  hold : Bool
  digest : Digest
  suction : Level
  delivery : Option Level
  claims : List Descriptor
  deriving DecidableEq, Repr

/-- Body of an ANSWER: what the slot held, and the topic's content as bytes (R186, 11.3). -/
structure AnswerBody where
  asker : Addr
  topic : Topic
  index : Byte
  content : List Byte
  deriving DecidableEq, Repr

/-- Body of an ASK. -/
structure AskFields where
  target : Target
  topic : Topic
  index : Byte
  deriving DecidableEq, Repr

/-- Body of HOLD, FREE, CLEAR; with a pump, of SHED; PURGE has a subject in place of the target. -/
structure OrderFields (α : Type) where
  target : α
  siteCode : BitVec 16
  deriving DecidableEq, Repr

/-- A telegram of this station with its body built, as it stands on the bus (R140). -/
inductive Sent where
  | veto (v : VetoFields)
  | drop (d : DropFields)
  | run (r : RunFields)
  | commit (c : ClaimFields)
  | bid (c : ClaimFields)
  | answer (b : AnswerBody)
  | roll (b : RollBody)
  deriving DecidableEq, Repr

/-! ## The check word and the digest (R200, R201) -/

/-- One bit of the check: generator x^16 + x^12 + x^5 + 1. -/
def crcBit (c : BitVec 16) : BitVec 16 :=
  if c.msb then (c <<< 1) ^^^ 4129#16 else c <<< 1

/-- One byte of the check, most significant bit first. -/
def crcByte (c : BitVec 16) (b : Byte) : BitVec 16 :=
  crcBit (crcBit (crcBit (crcBit (crcBit (crcBit (crcBit (crcBit
    (c ^^^ (b.setWidth 16 <<< 8)))))))))

/-- The check function over bytes taken in order, no final inversion. -/
def crc (init : BitVec 16) (bytes : List Byte) : BitVec 16 := bytes.foldl crcByte init

/-- The check word of a telegram or of the image (R200). -/
def checkWord (bytes : List Byte) : BitVec 16 := crc 65535#16 bytes

/-- Two bytes, most significant first. -/
def word16 (hi lo : Byte) : BitVec 16 := hi ++ lo

/-- A 16-bit field as two bytes, most significant first. -/
def bytes16 (w : BitVec 16) : List Byte := [w.extractLsb' 8 8, w.extractLsb' 0 8]

/-! ## Reading the fields -/

/-- A one-byte code that must lie below n. -/
def code? (n : Nat) (b : Byte) : Option (Fin n) :=
  if h : b.toNat < n then some ⟨b.toNat, h⟩ else none

/-- A load, 1–63 LU. -/
def load? (b : Byte) : Option Nat :=
  if 1 ≤ b.toNat ∧ b.toNat ≤ 63 then some b.toNat else none

/-- Claim state codes. -/
def claimState? (b : Byte) : Option ClaimState :=
  match b.toNat with
  | 1 => some .held
  | 2 => some .starting
  | 3 => some .running
  | _ => none

/-- Refusal reason codes. -/
def refusal? (b : Byte) : Option RefusalReason :=
  match b.toNat with
  | 1 => some .duplicate
  | 2 => some .membership
  | 3 => some .mainBusy
  | 4 => some .budget
  | 5 => some .reserve
  | 6 => some .tableFull
  | _ => none

/-- Drop reason codes. -/
def dropReason? (b : Byte) : Option DropReason :=
  match b.toNat with
  | 1 => some .stopped
  | 2 => some .shed
  | 3 => some .trip
  | 4 => some .startFail
  | 5 => some .withdrawn
  | 6 => some .localEnd
  | _ => none

/-- Mode codes of a ROLL. -/
def rollMode? (b : Byte) : Option RollMode :=
  match b.toNat with
  | 1 => some .listen
  | 2 => some .active
  | 3 => some .isolated
  | _ => none

/-- Topic codes. -/
def topic? (b : Byte) : Option Topic :=
  match b.toNat with
  | 1 => some .station
  | 2 => some .claims
  | 3 => some .channels
  | 4 => some .faults
  | 5 => some .counters
  | 6 => some .roster
  | _ => none

/-- Target codes: 0–13 or 255. -/
def target? (b : Byte) : Option Target :=
  if h : b.toNat < 14 then some (.one ⟨b.toNat, h⟩)
  else if b.toNat = 255 then some .all else none

/-- The hold field of a ROLL: 0 no, 1 yes. -/
def hold? (b : Byte) : Option Bool :=
  match b.toNat with
  | 0 => some false
  | 1 => some true
  | _ => none

/-- A level field that may not be absent. -/
def level? (w : BitVec 16) : Option Level :=
  if w.toNat ≤ 2000 then some (.cm w.toNat)
  else if w.toNat = 65535 then some .invalid else none

/-- The delivery level field of a ROLL, which may be absent. -/
def deliveryLevel? (w : BitVec 16) : Option (Option Level) :=
  if w.toNat = 65534 then some none else (level? w).map some

/-! ## Reading the bodies; none means not well formed (R21, R26, R179, R200) -/

/-- BID and COMMIT. -/
def decodeClaim : List Byte → Option ClaimFields
  | [p, m, l, c, b] => do
    let p ← code? 6 p
    let m ← code? 8 m
    let l ← load? l
    let c ← code? 4 c
    pure ⟨p, m, l, c, b⟩
  | _ => none

/-- VETO. -/
def decodeVeto : List Byte → Option VetoFields
  | [o, p, b, r] => do
    let o ← code? 14 o
    let p ← code? 6 p
    let r ← refusal? r
    pure ⟨o, p, b, r⟩
  | _ => none

/-- RUN. Bit 0 of the flags is the least significant (log 30); their spare bits are not tested. -/
def decodeRun : List Byte → Option RunFields
  | [p, m, l, c, b, f] => do
    let p ← code? 6 p
    let m ← code? 8 m
    let l ← load? l
    let c ← code? 4 c
    pure ⟨p, m, l, c, b, f.getLsbD 0, f.getLsbD 1⟩
  | _ => none

/-- DROP. -/
def decodeDrop : List Byte → Option DropFields
  | [p, r] => do
    let p ← code? 6 p
    let r ← dropReason? r
    pure ⟨p, r⟩
  | _ => none

/-- The descriptors of a ROLL, exactly as many as its count states; bit 0 of their flags is the least significant (log 30). -/
def decodeDescriptors : Nat → List Byte → Option (List Descriptor)
  | 0, [] => some []
  | n + 1, p :: m :: l :: c :: st :: b :: f :: rest => do
    let p ← code? 6 p
    let m ← code? 8 m
    let l ← load? l
    let c ← code? 4 c
    let st ← claimState? st
    let ds ← decodeDescriptors n rest
    pure (⟨p, m, l, c, st, b, f.getLsbD 0, f.getLsbD 1⟩ :: ds)
  | _, _ => none

/-- ROLL, well formed as R21 says: at most six descriptors, no pump named twice. -/
def decodeRoll : List Byte → Option RollBody
  | md :: h :: d1 :: d0 :: s1 :: s0 :: v1 :: v0 :: n :: rest => do
    let md ← rollMode? md
    let h ← hold? h
    let s ← level? (word16 s1 s0)
    let v ← deliveryLevel? (word16 v1 v0)
    let ds ← if n.toNat ≤ 6 then decodeDescriptors n.toNat rest else none
    if (ds.map Descriptor.pump).Nodup then pure ⟨md, h, word16 d1 d0, s, v, ds⟩ else none
  | _ => none

/-- ASK. -/
def decodeAsk : List Byte → Option AskFields
  | [t, k, i] => do
    let t ← target? t
    let k ← topic? k
    pure ⟨t, k, i⟩
  | _ => none

/-- HOLD, FREE, CLEAR. -/
def decodeOrder : List Byte → Option (OrderFields Target)
  | [t, s1, s0] => do
    let t ← target? t
    pure ⟨t, word16 s1 s0⟩
  | _ => none

/-- SHED. -/
def decodeShed : List Byte → Option (OrderFields (Target × Pump))
  | [t, s1, s0, p] => do
    let t ← target? t
    let p ← code? 6 p
    pure ⟨(t, p), word16 s1 s0⟩
  | _ => none

/-- PURGE: the subject is 0–15. -/
def decodePurge : List Byte → Option (OrderFields Addr)
  | [t, s1, s0] => do
    let t ← code? 16 t
    pure ⟨t, word16 s1 s0⟩
  | _ => none

/-! ## Reading a telegram off the line -/

/-- R127: complete, a length from 6 to 64 that agrees with the bytes received, and a check word that agrees. -/
def telegramValid (bytes : List Byte) : Bool :=
  6 ≤ bytes.length && bytes.length ≤ 64
    && (bytes.getD 1 0#8).toNat = bytes.length
    && checkWord (bytes.take (bytes.length - 2))
        = word16 (bytes.getD (bytes.length - 2) 0#8) (bytes.getD (bytes.length - 1) 0#8)

/-- The source address of a header's first byte. -/
def headerSource (b : Byte) : Addr := (b.extractLsb' 0 4).toFin

/-- The kind of a header (11.1), with the source and body, as the command its reception is (R127, R200). -/
def commandOf (priority : BitVec 4) (variant : Byte) (src : Addr) (body : List Byte) : Instr :=
  match priority.toNat, variant.toNat with
  | 0, 0 => .vetoReceived src body
  | 1, 0 => .dropReceived src body
  | 2, 0 => .runReceived src body
  | 3, 0 => .commitReceived src body
  | 4, 0 => .holdReceived src body
  | 4, 1 => .freeReceived src body
  | 4, 2 => .shedReceived src body
  | 4, 3 => .clearReceived src body
  | 4, 4 => .purgeReceived src body
  | 5, 0 => .bidReceived src body
  | 6, 0 => .askReceived src body
  | 7, 0 => .answerReceived src body
  | 8, 0 => .rollReceived src body
  | _, _ => .unknownKindReceived priority variant src body

/-- What a receiver makes of the bytes of another station's telegram or of a burst: the command of its reception.
Total on any bytes; bytes that fail the check of R127 are CHECK_FAILED. -/
def decodeTelegram (bytes : List Byte) : Instr :=
  if telegramValid bytes then
    commandOf ((bytes.getD 0 0#8).extractLsb' 4 4) (bytes.getD 2 0#8) (headerSource (bytes.getD 0 0#8))
      ((bytes.take (bytes.length - 2)).drop 3)
  else .checkFailed

/-! ## Building the station's own telegrams (R200) -/

/-- A small number as one byte. -/
def byte (n : Nat) : Byte := BitVec.ofNat 8 n

/-- Claim state code. -/
def ClaimState.code : ClaimState → Byte
  | .held => 1#8
  | .starting => 2#8
  | .running => 3#8

/-- Refusal reason code. -/
def RefusalReason.code : RefusalReason → Byte
  | .duplicate => 1#8
  | .membership => 2#8
  | .mainBusy => 3#8
  | .budget => 4#8
  | .reserve => 5#8
  | .tableFull => 6#8

/-- Drop reason code. -/
def DropReason.code : DropReason → Byte
  | .stopped => 1#8
  | .shed => 2#8
  | .trip => 3#8
  | .startFail => 4#8
  | .withdrawn => 5#8
  | .localEnd => 6#8

/-- Mode code of a ROLL. -/
def RollMode.code : RollMode → Byte
  | .listen => 1#8
  | .active => 2#8
  | .isolated => 3#8

/-- Topic code. -/
def Topic.code : Topic → Byte
  | .station => 1#8
  | .claims => 2#8
  | .channels => 3#8
  | .faults => 4#8
  | .counters => 5#8
  | .roster => 6#8

/-- A level as the 16-bit field of a ROLL. -/
def Level.word : Level → BitVec 16
  | .cm n => BitVec.ofNat 16 n
  | .invalid => 65535#16

/-- The delivery level field of a ROLL. -/
def deliveryWord : Option Level → BitVec 16
  | some l => l.word
  | none => 65534#16

/-- A flags byte from its bits, bit 0 first. Chapter 11 numbers the bits and does not say which is bit 0: it is taken as the
least significant (log 30). -/
def flagsByte (b0 b1 b2 b3 b4 b5 : Bool) : Byte :=
  byte (b0.toNat + 2 * b1.toNat + 4 * b2.toNat + 8 * b3.toNat + 16 * b4.toNat + 32 * b5.toNat)

/-- BID and COMMIT body. -/
def ClaimFields.bytes (c : ClaimFields) : List Byte :=
  [byte c.pump.val, byte c.main.val, byte c.load, byte c.cls.val, c.bid]

/-- VETO body. -/
def VetoFields.bytes (v : VetoFields) : List Byte :=
  [byte v.owner.val, byte v.pump.val, v.bid, v.reason.code]

/-- RUN body. -/
def RunFields.bytes (r : RunFields) : List Byte :=
  [byte r.pump.val, byte r.main.val, byte r.load, byte r.cls.val, r.bid,
    flagsByte r.manual r.island false false false false]

/-- DROP body. -/
def DropFields.bytes (d : DropFields) : List Byte := [byte d.pump.val, d.reason.code]

/-- Claim descriptor of a ROLL. -/
def Descriptor.bytes (d : Descriptor) : List Byte :=
  [byte d.pump.val, byte d.main.val, byte d.load, byte d.cls.val, d.state.code, d.bid,
    flagsByte d.manual d.island false false false false]

/-- The descriptors of a ROLL one after the other. -/
def descriptorBytes : List Descriptor → List Byte
  | [] => []
  | d :: ds => d.bytes ++ descriptorBytes ds

/-- ROLL body. -/
def RollBody.bytes (b : RollBody) : List Byte :=
  [b.mode.code, byte b.hold.toNat] ++ bytes16 b.digest ++ bytes16 b.suction.word
    ++ bytes16 (deliveryWord b.delivery) ++ [byte b.claims.length] ++ descriptorBytes b.claims

/-- ANSWER body: asker and topic in one byte, the index, the content. -/
def AnswerBody.bytes (b : AnswerBody) : List Byte :=
  byte (16 * b.asker.val + b.topic.code.toNat) :: b.index :: b.content

/-- Kind priority of an own telegram (R132). -/
def Sent.priority : Sent → Nat
  | .veto _ => 0
  | .drop _ => 1
  | .run _ => 2
  | .commit _ => 3
  | .bid _ => 5
  | .answer _ => 7
  | .roll _ => 8

/-- Body of an own telegram. -/
def Sent.body : Sent → List Byte
  | .veto v => v.bytes
  | .drop d => d.bytes
  | .run r => r.bytes
  | .commit c => c.bytes
  | .bid c => c.bytes
  | .answer b => b.bytes
  | .roll b => b.bytes

/-- Header and body: byte 0 is the arbitration key, byte 1 the length with the check word, byte 2 the kind
variant, which is 0 for every kind a ZH-26 sends (11.1). -/
def frame (priority : Nat) (src : Addr) (body : List Byte) : List Byte :=
  byte (16 * priority + src.val) :: byte (body.length + 5) :: 0#8 :: body

/-- A whole telegram: frame and check word. -/
def encodeTelegram (priority : Nat) (src : Addr) (body : List Byte) : List Byte :=
  frame priority src body ++ bytes16 (checkWord (frame priority src body))

/-- The bytes of an own telegram on the line. -/
def Sent.bytes (src : Addr) (t : Sent) : List Byte := encodeTelegram t.priority src t.body

/-- Bytes compared in order, as the line compares telegrams bit for bit (R131): the first is lower. -/
def bytesBelow : List Byte → List Byte → Bool
  | [], [] => false
  | [], _ :: _ => true
  | _ :: _, [] => false
  | x :: xs, y :: ys => if x.toNat < y.toNat then true else if y.toNat < x.toNat then false else bytesBelow xs ys

/-! ## The opcode table's own words -/

/-- No row of spec/opcode_table.json gives bits, so no word spells a command (log 20). -/
def decodeTableWord (_nbits _w : Nat) : Option Instr := none

end Sys2Proof
end

