-- ==== Sys2Proof/Machine/State.lean ====
section
/-! DEFINITION. Every piece of state the spec gives the ZH-26, block by block (00_scope.md "Block overview"), as
plain data, with State.reset: the machine right after reset. A timer is held as the moment it was started, none while
it is stopped; its length comes from the image or from Config. Log 3, log 4: the line levels and strap pins that
State.reset names. -/

namespace Sys2Proof.Machine

/-- A timer: stopped, or the local time in ms at which it was started. -/
abbrev Timer := Option Nat

/-! ## The outside lines -/

/-- Levels of one pump's input lines (R56): asserted is true. -/
structure PumpLines where
  feedback : Bool
  overload : Bool
  auto : Bool
  deriving DecidableEq, Repr

/-- Levels of the field lines. They belong to the pump house and outlive a reset (log 3). -/
structure FieldLines where
  pump : Vector PumpLines 6
  fireDemand : Bool
  offPeak : Bool
  gangStop : Bool
  mute : Bool
  deriving DecidableEq, Repr

/-! ## Configuration loader (chapter 10) -/

/-- A pump record of the image, each field as its code (R197, 11.4). -/
structure PumpRecord where
  present : Nat
  main : Nat
  load : Nat
  startLevel : Nat
  stopLevel : Nat
  startConfirm : Nat
  stopConfirm : Nat
  minRun : Nat
  minRest : Nat
  gang : Nat
  deriving DecidableEq, Repr

/-- The image as read, every field of 11.4 as its code, valid or not (R199). -/
structure Image where
  format : Nat
  totalLength : Nat
  cap : Nat
  reserve : Nat
  rollPeriod : Nat
  window : Nat
  classMode : Nat
  siteCode : BitVec 16
  membership : Vector (BitVec 16) 8
  guard : Vector Nat 8
  blindLimit : Nat
  spanA : Nat
  spanB : Nat
  source : Nat
  dry : Nat
  release : Nat
  critical : Nat
  topUp : Nat
  highHigh : Nat
  allowance : Nat
  alarmMode : Nat
  pumps : Vector PumpRecord 6
  spare : Byte
  check : BitVec 16
  deriving DecidableEq, Repr

/-- Loader state (R199): the latched straps, the image, the digest. -/
structure Loader where
  address : Addr
  polarity : Bool
  image : Option Image
  digest : Option Digest
  deriving DecidableEq, Repr

/-! ## Station mode controller (R145) -/

/-- Station mode. -/
inductive StationMode where
  | loading
  | halted
  | listen
  | active
  | isolated
  deriving DecidableEq, Repr

/-- Station mode controller. `mismatch` is the mismatching peer, present exactly while the digest mismatch condition
is in force (R161, R162). -/
structure ModeControl where
  mode : StationMode
  listenTimer : Timer
  ackMark : Bool
  hold : Bool
  mismatch : Option Station
  deriving DecidableEq, Repr

/-! ## Claim table (chapter 1) -/

/-- A claim entry (R1). -/
structure Entry where
  owner : Station
  pump : Pump
  main : Main
  load : Nat
  cls : Class
  state : ClaimState
  bid : BidNumber
  manual : Bool
  island : Bool
  orphan : Bool
  deriving DecidableEq, Repr

/-- A roster record (R10); none is absent. -/
structure RosterRecord where
  heard : Bool
  lastHeard : Option Nat
  silent : Bool
  mode : Option RollMode
  hold : Option Bool
  digest : Option Digest
  suction : Option Level
  delivery : Option Level
  deriving DecidableEq, Repr

/-- Claim table block: entries in table order (R2), last settle times (R8), the TABLE_FULL condition (R4), the
roster (R10). -/
structure Claims where
  entries : List Entry
  settle : Vector (Option Nat) 8
  full : Bool
  roster : Vector RosterRecord 14
  deriving DecidableEq, Repr

/-! ## Pump channels (chapter 3) -/

/-- Channel state (R57, 3.2). -/
inductive ChanState where
  | disabled
  | idle
  | resting
  | queued
  | bidding
  | contending
  | starting
  | running
  | stopping
  | stopFailed
  | tripped
  | localOff
  | localRun
  | locked
  deriving DecidableEq, Repr

/-- Stop reason (R57). -/
inductive StopReason where
  | stopped
  | shed
  deriving DecidableEq, Repr

/-- Claim descriptor of a channel (R57). -/
structure ClaimDesc where
  cls : Class
  bid : BidNumber
  manual : Bool
  island : Bool
  deriving DecidableEq, Repr

/-- A pump channel (R56, R57): its RUN output and its values. `totalRun` counts ms (R65). -/
structure Channel where
  state : ChanState
  runLine : Bool
  claim : Option ClaimDesc
  stopReason : Option StopReason
  totalRun : Nat
  currentRun : Option Nat
  lastStart : Option Nat
  serviceBlock : Bool
  stopFail : Bool
  tripAck : Bool
  startConfirm : Timer
  stopConfirm : Timer
  rest : Timer
  contest : Timer
  deriving DecidableEq, Repr

/-- The six channels and the station's bid number counter. -/
structure Pumps where
  chan : Vector Channel 6
  bidNumber : BidNumber
  deriving DecidableEq, Repr

/-! ## Demand scheduler (chapter 4) -/

/-- A request (R88); the pump is its index. `hold` is the moment the retry hold was set, none while it is clear. -/
structure Request where
  cls : Class
  arrival : Nat
  hold : Option Nat
  deriving DecidableEq, Repr

/-- Class credits (R102). -/
structure Credits where
  c1 : Int
  c2 : Int
  c3 : Int
  deriving DecidableEq, Repr

/-- Request queue and credits. `evalDue` and `pickDue` are the model's own (log 6): an evaluation event (R90) or a
pick event (R100), one or several (log 31), has happened in the step in progress; both are false between steps. -/
structure Scheduler where
  request : Vector (Option Request) 6
  credits : Credits
  evalDue : Bool
  pickDue : Bool
  deriving DecidableEq, Repr

/-! ## Level monitor (chapter 5) -/

/-- One level input (R109, R110): `output` is none while invalid. -/
structure LevelChannel where
  window : List Nat
  outOfRange : Nat
  valid : Bool
  output : Option Nat
  sampleTimer : Timer
  deriving DecidableEq, Repr

/-- Freeze state (R112). -/
inductive Freeze where
  | opened
  | frozen
  | holdOver
  deriving DecidableEq, Repr

/-- Level monitor (R122). `remote` is the remote delivery level while its mark is fresh, none while it is stale. -/
structure Levels where
  a : LevelChannel
  b : LevelChannel
  freeze : Freeze
  holdOver : Timer
  lockout : Bool
  lockoutUnrecorded : Bool
  remote : Option Nat
  staleUnrecorded : Bool
  blindTimer : Timer
  blindReached : Bool
  allowance : Timer
  deriving DecidableEq, Repr

/-! ## Contour bus interface (chapter 6) -/

/-- A telegram waiting in the transmit queue. The bodies of ANSWER and ROLL are built when they begin (R140). -/
inductive Telegram where
  | veto (v : VetoFields)
  | drop (d : DropFields)
  | run (r : RunFields)
  | commit (c : ClaimFields)
  | bid (c : ClaimFields)
  | answer
  | roll
  deriving DecidableEq, Repr

/-- Bus interface (R144). `queue` holds the waiting telegrams in queue order, `onBus` the own telegram on the bus;
R133's 16 counts both. `slotOpen`: the acknowledge slot of an own telegram has not ended. `ackSignal`: what this
station signals in the slot of the telegram last on the line (R129). -/
structure Bus where
  queue : List Telegram
  held : List Telegram
  onBus : Option Sent
  slotOpen : Bool
  ackSignal : Bool
  unacked : Nat
  window : Nat
  rollTimer : Timer
  deriving DecidableEq, Repr

/-! ## Fault file and alarm (chapter 8) -/

/-- Fault kinds (R165). -/
inductive FaultKind where
  | stopFail
  | overload
  | dryRun
  | levelSensor
  | remoteLevelStale
  | peerSilent
  | digestMismatch
  | tableFull
  | overBudget
  | isolated
  | configImage
  | startFail
  | lateVeto
  | divergence
  | checkErrors
  | siteCode
  | membership
  deriving DecidableEq, Repr

/-- The key of a record: kind, pump, peer, main (R164). -/
structure FaultKey where
  kind : FaultKind
  pump : Option Pump
  peer : Option Addr
  main : Option Main
  deriving DecidableEq, Repr

/-- A fault record (R164). -/
structure FaultRecord where
  key : FaultKey
  firstTime : Nat
  repeatCount : Nat
  standing : Bool
  acked : Bool
  deriving DecidableEq, Repr

/-- Fault file (R164). -/
structure FaultFile where
  records : List FaultRecord
  overflow : Bool
  deriving DecidableEq, Repr

/-- Alarm mode (R174). -/
inductive AlarmMode where
  | level
  | pulse
  deriving DecidableEq, Repr

/-- Alarm output (R174). -/
structure Alarm where
  driven : Bool
  mode : AlarmMode
  pulseTimer : Timer
  heldPulse : Bool
  deriving DecidableEq, Repr

/-! ## Service responder (chapter 9) -/

/-- Contents of the pending-ask slot (R185). -/
structure Ask where
  topic : Topic
  index : Byte
  asker : Addr
  deriving DecidableEq, Repr

/-- The eleven statistic counters in the order of R190. -/
structure Counters where
  carried : Nat
  receivedValid : Nat
  checkFailures : Nat
  arbitrationLosses : Nat
  unacked : Nat
  displaced : Nat
  bidsSent : Nat
  bidsVetoed : Nat
  commits : Nat
  startFailures : Nat
  sheds : Nat
  deriving DecidableEq, Repr

/-- Service responder. -/
structure Responder where
  slot : Option Ask
  counters : Counters
  deriving DecidableEq, Repr

/-! ## The whole machine -/

/-- The ZH-26, and the commands waiting for it, first in, first out. -/
structure State where
  now : Nat
  field : FieldLines
  loader : Loader
  ctl : ModeControl
  claims : Claims
  pumps : Pumps
  sched : Scheduler
  levels : Levels
  bus : Bus
  faults : FaultFile
  alarm : Alarm
  resp : Responder
  pending : List Instr
  deriving DecidableEq, Repr

/-- Reasons the machine stops with a fault: none. What the manual calls a fault is a record of the fault file
(R164), and HALTED is a mode in which the inputs ACK and MUTE still act (R149). -/
inductive Fault where
  deriving DecidableEq, Repr

/-- Reasons a command has no meaning here. -/
inductive Refusal where
  /-- The command of this name is not modelled. Raised by no arm of exec; safe. -/
  | notModelled (mnemonic : String)
  deriving DecidableEq, Repr

/-! ## Reset values -/

/-- Lines of one pump, all released (log 3). -/
def PumpLines.released : PumpLines := ⟨false, false, false⟩

/-- All field lines released (log 3). -/
def FieldLines.released : FieldLines :=
  ⟨#v[.released, .released, .released, .released, .released, .released], false, false, false, false⟩

/-- Loader after a reset that latched these straps (R199). -/
def Loader.reset (address : Addr) (polarity : Bool) : Loader := ⟨address, polarity, none, none⟩

/-- Station mode controller after reset (R145). -/
def ModeControl.reset : ModeControl := ⟨.loading, none, false, false, none⟩

/-- Roster record after reset (R17). -/
def RosterRecord.reset : RosterRecord := ⟨false, none, false, none, none, none, none, none⟩

/-- Claim table block after reset (R9, R17). -/
def Claims.reset : Claims where
  entries := []
  settle := #v[none, none, none, none, none, none, none, none]
  full := false
  roster := #v[.reset, .reset, .reset, .reset, .reset, .reset, .reset, .reset, .reset, .reset, .reset, .reset,
    .reset, .reset]

/-- Channel after reset (R57). -/
def Channel.reset : Channel :=
  ⟨.disabled, false, none, none, 0, none, none, false, false, false, none, none, none, none⟩

/-- Channels after reset (R57). -/
def Pumps.reset : Pumps := ⟨#v[.reset, .reset, .reset, .reset, .reset, .reset], 0#8⟩

/-- Scheduler after reset (R106). -/
def Scheduler.reset : Scheduler := ⟨#v[none, none, none, none, none, none], ⟨0, 0, 0⟩, false, false⟩

/-- Level input after reset (R122). -/
def LevelChannel.reset : LevelChannel := ⟨[], 0, true, none, none⟩

/-- Level monitor after reset (R122). -/
def Levels.reset : Levels :=
  ⟨.reset, .reset, .opened, none, true, true, none, true, none, false, none⟩

/-- Bus interface after reset (R144). -/
def Bus.reset : Bus := ⟨[], [], none, false, false, 0, 0, none⟩

/-- Fault file after reset (R164). -/
def FaultFile.reset : FaultFile := ⟨[], false⟩

/-- Alarm output after reset (R174). -/
def Alarm.reset : Alarm := ⟨false, .level, none, false⟩

/-- Service responder after reset (R185, R190). -/
def Responder.reset : Responder := ⟨none, ⟨0, 0, 0, 0, 0, 0, 0, 0, 0, 0, 0⟩⟩

/-- The machine after a reset under these line levels and straps, with this command queue. -/
def State.afterReset (field : FieldLines) (address : Addr) (polarity : Bool) (pending : List Instr) : State where
  now := 0
  field := field
  loader := .reset address polarity
  ctl := .reset
  claims := .reset
  pumps := .reset
  sched := .reset
  levels := .reset
  bus := .reset
  faults := .reset
  alarm := .reset
  resp := .reset
  pending := pending

/-- The machine right after reset (R145): LOADING, every block at its reset values, no command waiting. Log 3: the
field lines are taken as released. Log 4: the straps are taken as address 0, polarity low. -/
def State.reset : State := .afterReset .released 0 false []

end Sys2Proof.Machine
end

