-- ==== Sys2Proof/Machine/Operands.lean ====
section
/-! DEFINITION. The operands the commands bring: the bytes of the configuration image, taken apart and checked
(chapter 10, 11.4), and the raw level sample (R108). -/

namespace Sys2Proof.Machine

/-! ## Taking the image apart (R193, R201) -/

/-- The byte the flash presents at an address; a flash that does not answer presents 255 (R193). -/
def flashByte (bytes : List Byte) (i : Nat) : Byte := bytes.getD i Config.silentFlash

/-- A one-byte field of the image. -/
def field8 (bytes : List Byte) (i : Nat) : Nat := (flashByte bytes i).toNat

/-- A two-byte field of the image, most significant byte first. -/
def field16 (bytes : List Byte) (i : Nat) : BitVec 16 := word16 (flashByte bytes i) (flashByte bytes (i + 1))

/-- The pump record at an address (11.4). -/
def parsePump (bytes : List Byte) (i : Nat) : PumpRecord where
  present := field8 bytes i
  main := field8 bytes (i + 1)
  load := field8 bytes (i + 2)
  startLevel := (field16 bytes (i + 3)).toNat
  stopLevel := (field16 bytes (i + 5)).toNat
  startConfirm := field8 bytes (i + 7)
  stopConfirm := field8 bytes (i + 8)
  minRun := (field16 bytes (i + 9)).toNat
  minRest := (field16 bytes (i + 11)).toNat
  gang := field8 bytes (i + 13)

/-- The image, each field from the address of the table of 11.4 (R201). -/
def parseImage (bytes : List Byte) : Image where
  format := field8 bytes 0
  totalLength := (field16 bytes 1).toNat
  cap := (field16 bytes 3).toNat
  reserve := (field16 bytes 5).toNat
  rollPeriod := field8 bytes 7
  window := field8 bytes 8
  classMode := field8 bytes 9
  siteCode := field16 bytes 10
  membership := #v[field16 bytes 12, field16 bytes 14, field16 bytes 16, field16 bytes 18, field16 bytes 20,
    field16 bytes 22, field16 bytes 24, field16 bytes 26]
  guard := #v[(field16 bytes 28).toNat, (field16 bytes 30).toNat, (field16 bytes 32).toNat,
    (field16 bytes 34).toNat, (field16 bytes 36).toNat, (field16 bytes 38).toNat, (field16 bytes 40).toNat,
    (field16 bytes 42).toNat]
  blindLimit := (field16 bytes 44).toNat
  spanA := (field16 bytes 46).toNat
  spanB := (field16 bytes 48).toNat
  source := field8 bytes 50
  dry := (field16 bytes 51).toNat
  release := (field16 bytes 53).toNat
  critical := (field16 bytes 55).toNat
  topUp := (field16 bytes 57).toNat
  highHigh := (field16 bytes 59).toNat
  allowance := (field16 bytes 61).toNat
  alarmMode := field8 bytes 63
  pumps := #v[parsePump bytes 64, parsePump bytes 78, parsePump bytes 92, parsePump bytes 106,
    parsePump bytes 120, parsePump bytes 134]
  spare := flashByte bytes 148
  check := field16 bytes 149

/-- The bytes of the flash from an address on, as many as asked for. -/
def flashBytes (bytes : List Byte) (start : Nat) : Nat → List Byte
  | 0 => []
  | n + 1 => flashByte bytes start :: flashBytes bytes (start + 1) n

/-- The digest: the check function over addresses 3 to 45, initial value 0 (R196, R201). -/
def imageDigest (bytes : List Byte) : Digest := crc 0#16 (flashBytes bytes 3 43)

/-- The check word computed over addresses 0 to 148 (R198, R201). -/
def imageCheckWord (bytes : List Byte) : BitVec 16 := checkWord (flashBytes bytes 0 149)

/-! ## What the fields name -/

/-- The main of a pump record. -/
def Image.main (im : Image) (p : Pump) : Main := Fin.ofNat 8 (im.pumps[p]).main

/-- The load of a pump record, LU. -/
def Image.load (im : Image) (p : Pump) : Nat := (im.pumps[p]).load

/-- Whether the pump record is present, so that the channel is in use (R55). -/
def Image.present (im : Image) (p : Pump) : Bool := (im.pumps[p]).present = 1

/-- The gang flag of a pump record. -/
def Image.gang (im : Image) (p : Pump) : Bool := (im.pumps[p]).gang = 1

/-- Membership of a main (R195): bit n names station n, bit 0 being the least significant (log 30). -/
def Image.member (im : Image) (m : Main) (o : Station) : Bool := (im.membership[m]).getLsbD o.val

/-- The roll period in ms. -/
def Image.rollTime (im : Image) : Nat := im.rollPeriod * 1000

/-- The silence limit, the listen period and the start-up allowance in ms: three roll periods. -/
def Image.silenceLimit (im : Image) : Nat := Config.silencePeriods * im.rollTime

/-- The contest window W in ms; the image holds multiples of 50 ms. -/
def Image.contestWindow (im : Image) : Nat := im.window * 50

/-- Class mode STRICT (code 1); code 2 is MIXED. -/
def Image.strict (im : Image) : Bool := im.classMode = 1

/-- Delivery source LOCAL (code 255). -/
def Image.localSource (im : Image) : Bool := im.source = 255

/-- The station a REMOTE delivery source names. -/
def Image.remoteSource (im : Image) : Option Station :=
  if h : im.source < 14 then some ⟨im.source, h⟩ else none

/-- The alarm mode of the local section: 1 LEVEL, 2 PULSE. -/
def Image.alarm (im : Image) : AlarmMode := if im.alarmMode = 2 then .pulse else .level

/-! ## Validation (R198) -/

/-- Ranges of the shared section (R195, 11.4). -/
def Image.sharedInRange (im : Image) : Bool :=
  1 ≤ im.cap && im.cap ≤ 1023 && im.reserve ≤ im.cap
    && 1 ≤ im.rollPeriod && im.rollPeriod ≤ 10
    && 2 ≤ im.window && im.window ≤ 40
    && (im.classMode = 1 || im.classMode = 2)
    && im.membership.toList.all (fun m => !m.getLsbD 14 && !m.getLsbD 15)
    && im.guard.toList.all (fun g => g ≤ 600)
    && im.blindLimit ≤ 3600

/-- Ranges of the station-wide fields of the local section (R197, 11.4). -/
def Image.localInRange (im : Image) : Bool :=
  100 ≤ im.spanA && im.spanA ≤ 2000 && 100 ≤ im.spanB && im.spanB ≤ 2000
    && (im.source = 255 || im.source ≤ 13)
    && im.dry ≤ 2000 && im.release ≤ 2000 && im.critical ≤ 2000 && im.topUp ≤ 2000 && im.highHigh ≤ 2000
    && im.allowance ≤ 1023
    && (im.alarmMode = 1 || im.alarmMode = 2)

/-- Ranges of a pump record: the present field always, the rest when it is 1 (R197, R201). -/
def PumpRecord.inRange (r : PumpRecord) : Bool :=
  r.present = 0 ||
    (r.present = 1 && r.main ≤ 7 && 1 ≤ r.load && r.load ≤ 63 && r.startLevel ≤ 2000 && r.stopLevel ≤ 2000
      && 1 ≤ r.startConfirm && r.startConfirm ≤ 60 && 1 ≤ r.stopConfirm && r.stopConfirm ≤ 60
      && r.minRun ≤ 3600 && r.minRest ≤ 3600 && r.gang ≤ 1)

/-- The tests of R198 that concern one present pump: pump order, critical order, membership. -/
def Image.pumpFits (im : Image) (own : Addr) (p : Pump) : Bool :=
  !im.present p ||
    ((im.pumps[p]).startLevel < (im.pumps[p]).stopLevel && (im.pumps[p]).stopLevel ≤ im.highHigh
      && im.critical ≤ (im.pumps[p]).startLevel
      && (im.membership[im.main p]).getLsbD own.val && decide (own.val < 14))

/-- Every test of R198 but the check word. -/
def Image.fits (im : Image) (own : Addr) : Bool :=
  im.format = 1 && im.totalLength = Config.imageLength
    && im.sharedInRange && im.localInRange && im.pumps.toList.all PumpRecord.inRange
    && im.dry < im.release && im.topUp ≤ im.highHigh
    && allPumps.all (im.pumpFits own)
    && im.source ≠ own.val

/-- The one outcome of the loading: valid or not (R198). -/
def imageValid (bytes : List Byte) (own : Addr) : Bool :=
  (parseImage bytes).fits own && imageCheckWord bytes = (parseImage bytes).check

/-! ## The raw sample (R108) -/

/-- In range: 64 to 4031 counts. -/
def sampleInRange (x : BitVec 12) : Bool := 64 ≤ x.toNat && x.toNat ≤ 4031

/-- An in-range sample in cm: 64 counts are 0, 4031 counts the full span, rounded down. -/
def sampleLevel (span : Nat) (x : BitVec 12) : Nat := (x.toNat - 64) * span / 3967

end Sys2Proof.Machine
end

