-- ==== Sys2Proof/Machine/Flags.lean ====
section
/-! DEFINITION. The conditions and marks the rules derive from the state: who may receive and judge, the counted
load and the busy marks (R6, R7), the pending alarm (R173), freshness of the delivery level (R117, R118), the stop
conditions of a running channel (R66). -/

namespace Sys2Proof.Machine

/-! ## Configuration and mode -/

/-- The image in force; every field 0 before one is loaded. -/
def Image.blank : Image := parseImage (List.replicate 151 0#8)

/-- The image every block reads (R199). -/
def State.img (s : State) : Image := s.loader.image.getD .blank

/-- The own address as a pump-house station. A station strapped to 14 or 15 never leaves HALTED (R148), so the value
taken there is read by nothing (log 15). -/
def State.own (s : State) : Station := (Addr.station? s.loader.address).getD 0

/-- LISTEN, ACTIVE or ISOLATED: the receiver is on and the timers run (R125, R146). -/
def StationMode.receives : StationMode → Bool
  | .listen => true
  | .active => true
  | .isolated => true
  | .loading => false
  | .halted => false

/-- The receiver is on (R125). -/
def State.receiverOn (s : State) : Bool := s.ctl.mode.receives

/-- A judging station (R27): ACTIVE with no digest mismatch in force. -/
def State.judging (s : State) : Bool := s.ctl.mode = .active && s.ctl.mismatch.isNone

/-- The silence limit, listen period and start-up allowance in ms. -/
def State.silenceLimit (s : State) : Nat := s.img.silenceLimit

/-! ## Channels, lines and requests -/

/-- A channel. -/
def State.chan (s : State) (p : Pump) : Channel := s.pumps.chan[p]

/-- The request of a pump. -/
def State.request (s : State) (p : Pump) : Option Request := s.sched.request[p]

/-- FEEDBACK of a pump. -/
def State.feedback (s : State) (p : Pump) : Bool := (s.field.pump[p]).feedback

/-- OVERLOAD of a pump. -/
def State.overload (s : State) (p : Pump) : Bool := (s.field.pump[p]).overload

/-- AUTO of a pump. -/
def State.auto (s : State) (p : Pump) : Bool := (s.field.pump[p]).auto

/-- The channel reads its lines and acts (R55, R56): its record is present and the station has left LOADING for
LISTEN. -/
def State.inUse (s : State) (p : Pump) : Bool := s.receiverOn && s.img.present p

/-- The gang-stop input acts on this channel now (R79). -/
def State.gangStopped (s : State) (p : Pump) : Bool := s.field.gangStop && s.img.gang p

/-- The run line is asserted in STARTING and RUNNING alone (R58). -/
def ChanState.drives : ChanState → Bool
  | .starting => true
  | .running => true
  | _ => false

/-- STARTING and STOPPING freeze the levels (R112). -/
def ChanState.moves : ChanState → Bool
  | .starting => true
  | .stopping => true
  | _ => false

/-- BIDDING and CONTENDING: a bid in flight (R96). -/
def ChanState.inContest : ChanState → Bool
  | .bidding => true
  | .contending => true
  | _ => false

/-- States in which a present FEEDBACK means local running (R77). -/
def ChanState.yieldsToHand : ChanState → Bool
  | .idle => true
  | .resting => true
  | .queued => true
  | .localOff => true
  | .locked => true
  | _ => false

/-- States in which an asserted OVERLOAD trips (R73). -/
def ChanState.trips : ChanState → Bool
  | .starting => true
  | .running => true
  | .stopping => true
  | .stopFailed => true
  | _ => false

/-- Some own channel is in STARTING or STOPPING (R112). -/
def State.moving (s : State) : Bool := allPumps.any (fun p => (s.chan p).state.moves)

/-- Some own channel is in BIDDING or CONTENDING (R96). -/
def State.bidInFlight (s : State) : Bool := allPumps.any (fun p => (s.chan p).state.inContest)

/-- Total run time in whole seconds, saturating (R65). -/
def Channel.totalSeconds (c : Channel) : Nat := min (c.totalRun / 1000) Config.totalRunMax

/-- The minimum run is met (R65). -/
def State.minimumRunMet (s : State) (p : Pump) : Bool :=
  match (s.chan p).currentRun with
  | some t => (s.img.pumps[p]).minRun * 1000 ≤ t
  | none => false

/-! ## Claim table -/

/-- Whether an entry is the claim of this owner and pump. -/
def Entry.isFor (e : Entry) (o : Station) (p : Pump) : Bool := e.owner = o && e.pump = p

/-- The entry for an owner and pump. -/
def findClaim (es : List Entry) (o : Station) (p : Pump) : Option Entry := es.find? (fun e => e.isFor o p)

/-- The entry for an owner and pump in the own table. -/
def State.entry (s : State) (o : Station) (p : Pump) : Option Entry := findClaim s.claims.entries o p

/-- Sum of the loads of entries. -/
def loadOf (es : List Entry) : Nat := es.foldr (fun e n => e.load + n) 0

/-- Counted load (R6). -/
def State.countedLoad (s : State) : Nat := loadOf s.claims.entries

/-- Sum of the loads of the own entries (R99). -/
def State.ownLoad (s : State) : Nat := loadOf (s.claims.entries.filter (fun e => e.owner = s.own))

/-- An entry that keeps its main busy. -/
def Entry.unsettled (e : Entry) : Bool :=
  match e.state with
  | .held => true
  | .starting => true
  | .running => false

/-- Busy mark of a main (R7). -/
def State.busy (s : State) (m : Main) : Bool := s.claims.entries.any (fun e => e.main = m && e.unsettled)

/-- The table has a free entry (R3). -/
def State.hasRoom (s : State) : Bool := s.claims.entries.length < Config.tableCapacity

/-- Over budget (R48). -/
def State.overBudget (s : State) : Bool := s.img.cap < s.countedLoad

/-- A guard interval has passed (R97). -/
def State.guardPassed (s : State) (m : Main) : Bool :=
  match s.claims.settle[m] with
  | some t => t + (s.img.guard[m]) * 1000 ≤ s.now
  | none => true

/-! ## Levels -/

/-- The delivery level while it is fresh (R117, R118). -/
def State.delivery (s : State) : Option Nat :=
  if s.img.localSource then s.levels.b.output else s.levels.remote

/-- The mean of a full window, rounded down; none while it holds fewer than eight levels (R109). -/
def LevelChannel.filtered (c : LevelChannel) : Option Nat :=
  if c.window.length = Config.windowLength then some (c.window.foldr (· + ·) 0 / Config.windowLength) else none

/-- The delivery level is fresh and at or above a level. -/
def State.deliveryAtLeast (s : State) (n : Nat) : Bool :=
  match s.delivery with
  | some d => n ≤ d
  | none => false

/-- The delivery level is fresh and at or below a level. -/
def State.deliveryAtMost (s : State) (n : Nat) : Bool :=
  match s.delivery with
  | some d => d ≤ n
  | none => false

/-- The class of the channel's claim descriptor is 1, 2 or 3 (R66). -/
def Channel.ordinary (c : Channel) : Bool :=
  match c.claim with
  | some d => d.cls ≠ 0
  | none => true

/-- A stop condition of R66 holds for this channel, shedding apart. -/
def State.stopHolds (s : State) (p : Pump) : Bool :=
  ((s.chan p).ordinary && s.deliveryAtLeast (s.img.pumps[p]).stopLevel && s.minimumRunMet p)
    || s.deliveryAtLeast s.img.highHigh
    || s.levels.lockout
    || s.gangStopped p
    || ((s.chan p).ordinary && s.levels.blindReached && s.delivery.isNone && s.minimumRunMet p)

/-! ## Fault file -/

/-- The alarm is pending (R173). -/
def FaultFile.pending (f : FaultFile) : Bool := f.records.any (fun r => !r.acked) || f.overflow

/-- A record of kind OVERLOAD or START_FAIL names this pump (R75). -/
def FaultFile.namesTrip (f : FaultFile) (p : Pump) : Bool :=
  f.records.any (fun r => (r.key.kind = .overload || r.key.kind = .startFail) && r.key.pump = some p)

/-- The conditions under which a TRIPPED channel is released (R75). -/
def State.tripReleasable (s : State) (p : Pump) : Bool :=
  (s.chan p).state = .tripped && !s.overload p && !s.feedback p && (s.chan p).tripAck && !s.faults.namesTrip p

/-- The electrical level of the alarm output: high when true (R192). -/
def State.alarmPin (s : State) : Bool := s.alarm.driven == s.loader.polarity

end Sys2Proof.Machine
end

