-- ==== Sys2Proof/Machine/Ops.lean ====
section
/-! DEFINITION. The shared operations below the blocks: time, counters, the fault file with the alarm line that
follows it (chapter 8), and the transmit queue (6.4). -/

namespace Sys2Proof.Machine

/-! ## Time -/

/-- A function on each of six things. -/
def mapSix {α : Type} (f : α → α) (v : Vector α 6) : Vector α 6 :=
  #v[f v[0], f v[1], f v[2], f v[3], f v[4], f v[5]]

/-- The run times of a channel after d ms: they count in RUNNING alone (R65). -/
def Channel.after (d : Nat) (c : Channel) : Channel :=
  if c.state = .running then { c with totalRun := c.totalRun + d, currentRun := c.currentRun.map (· + d) } else c

/-- d ms pass with no event. -/
def State.advance (d : Nat) (s : State) : State :=
  { s with now := s.now + d, pumps := { s.pumps with chan := mapSix (Channel.after d) s.pumps.chan } }

/-- The moment of an expiry: a timer expires at its end, so the time still missing passes first (log 2). -/
def State.reach (moment : Nat) (s : State) : State := s.advance (moment - s.now)

/-- Uptime in whole seconds (00_scope.md "Own time"). -/
def State.uptime (s : State) : Nat := s.now / 1000

/-! ## Counters -/

/-- One more, held at the maximum (R191). -/
def bump (n : Nat) : Nat := min (n + 1) Config.counterMax

/-- A change of the statistic counters. -/
def State.count (f : Counters → Counters) (s : State) : State :=
  { s with resp := { s.resp with counters := f s.resp.counters } }

/-! ## Alarm line (8.6) -/

/-- A pulse begins, or the running one starts again (R176). -/
def State.startPulse (s : State) : State :=
  { s with alarm := { s.alarm with driven := true, pulseTimer := some s.now } }

/-- The line follows the pending condition, which was `was` before the change (R175, R176). -/
def State.alarmFollow (was : Bool) (s : State) : State :=
  match s.alarm.mode with
  | .level => { s with alarm := { s.alarm with driven := s.faults.pending && !s.field.mute } }
  | .pulse =>
    if s.faults.pending && !was then
      if s.field.mute then { s with alarm := { s.alarm with heldPulse := true } } else s.startPulse
    else s

/-! ## Fault file (8.1 to 8.4) -/

/-- The key of a report. -/
def faultKey (kind : FaultKind) (pump : Option Pump) (peer : Option Addr) (main : Option Main) : FaultKey :=
  ⟨kind, pump, peer, main⟩

/-- The key of a report about a channel: its pump and its pump's main (R165). -/
def State.pumpKey (s : State) (kind : FaultKind) (p : Pump) : FaultKey :=
  ⟨kind, some p, none, some (s.img.main p)⟩

/-- The key of a report that concerns nobody. -/
def bareKey (kind : FaultKind) : FaultKey := ⟨kind, none, none, none⟩

/-- The key of a report about a peer. -/
def peerKey (kind : FaultKind) (a : Addr) : FaultKey := ⟨kind, none, some a, none⟩

/-- A record that takes a further report (R166). -/
def FaultRecord.again (standing : Bool) (r : FaultRecord) : FaultRecord :=
  { r with repeatCount := min (r.repeatCount + 1) Config.repeatMax, acked := false,
           standing := r.standing || standing }

/-- The file takes a condition report (`standing`) or an event report (R166, R167). -/
def FaultFile.take (standing : Bool) (key : FaultKey) (uptime : Nat) (f : FaultFile) : FaultFile :=
  if f.records.any (fun r => r.key = key) then
    { f with records := f.records.map (fun r => if r.key = key then r.again standing else r) }
  else if f.records.length < Config.faultCapacity then
    { f with records := f.records ++ [⟨key, min uptime Config.firstTimeMax, 1, standing, false⟩] }
  else { f with overflow := true }

/-- A standing record of a key. -/
def FaultRecord.stands (key : FaultKey) (r : FaultRecord) : Bool := r.key = key && r.standing

/-- The file takes an end report (R168). -/
def FaultFile.finish (key : FaultKey) (f : FaultFile) : FaultFile :=
  { f with records := (f.records.filter (fun r => !(r.stands key && r.acked))).map
                        (fun r => if r.stands key then { r with standing := false } else r) }

/-- The file is acknowledged (R170). -/
def FaultFile.acknowledge (f : FaultFile) : FaultFile :=
  ⟨(f.records.filter FaultRecord.standing).map (fun r => { r with acked := true }), false⟩

/-- A change of the file with the alarm line that follows it (R173). -/
def State.changeFile (f : FaultFile → FaultFile) (s : State) : State :=
  State.alarmFollow s.faults.pending { s with faults := f s.faults }

/-- A standing condition starts, or is met again (R166, R167). -/
def State.reportCondition (key : FaultKey) (s : State) : State := s.changeFile (FaultFile.take true key s.uptime)

/-- An event is reported (R166, R167). -/
def State.reportEvent (key : FaultKey) (s : State) : State := s.changeFile (FaultFile.take false key s.uptime)

/-- A standing condition ends (R168). -/
def State.reportEnd (key : FaultKey) (s : State) : State := s.changeFile (FaultFile.finish key)

/-! ## Telegrams of the transmit queue -/

/-- Kind priority (R132). -/
def Telegram.priority : Telegram → Nat
  | .veto _ => 0
  | .drop _ => 1
  | .run _ => 2
  | .commit _ => 3
  | .bid _ => 5
  | .answer => 7
  | .roll => 8

/-- A waiting telegram that another may displace (R135). -/
def Telegram.displaceable : Telegram → Bool
  | .veto _ => true
  | .bid _ => true
  | .answer => true
  | .roll => true
  | .drop _ => false
  | .run _ => false
  | .commit _ => false

/-- RUN and DROP are always taken (R136). -/
def Telegram.alwaysTaken : Telegram → Bool
  | .drop _ => true
  | .run _ => true
  | .veto _ => false
  | .bid _ => false
  | .answer => false
  | .roll => false
  | .commit _ => false

/-- A BID of this pump. -/
def Telegram.isBidOf (p : Pump) : Telegram → Bool
  | .bid c => c.pump = p
  | _ => false

/-- A COMMIT of this pump. -/
def Telegram.isCommitOf (p : Pump) : Telegram → Bool
  | .commit c => c.pump = p
  | _ => false

/-- A RUN of this pump. -/
def Telegram.isRunOf (p : Pump) : Telegram → Bool
  | .run r => r.pump = p
  | _ => false

/-- A DROP of this pump. -/
def Telegram.isDropOf (p : Pump) : Telegram → Bool
  | .drop d => d.pump = p
  | _ => false

/-- A VETO. -/
def Telegram.isVeto : Telegram → Bool
  | .veto _ => true
  | _ => false

/-- A VETO that names this owner, pump and bid number (R34). -/
def Telegram.isVetoFor (o : Station) (p : Pump) (b : BidNumber) : Telegram → Bool
  | .veto v => v.owner = o && v.pump = p && v.bid = b
  | _ => false

/-- The telegram on the bus as one of the queue: its kind and, where it has one, its fixed body. -/
def Sent.telegram : Sent → Telegram
  | .veto v => .veto v
  | .drop d => .drop d
  | .run r => .run r
  | .commit c => .commit c
  | .bid c => .bid c
  | .answer _ => .answer
  | .roll _ => .roll

/-- Some waiting telegram is of this sort. -/
def Bus.waits (q : Telegram → Bool) (b : Bus) : Bool := b.queue.any q

/-- The telegram on the bus is of this sort. -/
def Bus.carries (q : Telegram → Bool) (b : Bus) : Bool :=
  match b.onBus with
  | some t => q (Sent.telegram t)
  | none => false

/-- Some telegram waiting, on the bus or held is of this sort. -/
def Bus.has (q : Telegram → Bool) (b : Bus) : Bool := b.waits q || b.carries q || b.held.any q

/-- Telegrams counted in the 16 of R133: those waiting and the one on the bus. -/
def Bus.size (b : Bus) : Nat := b.queue.length + (if b.onBus.isSome then 1 else 0)

/-- Placed behind every telegram of equal or lower kind priority number (R135). -/
def insertTelegram (t : Telegram) : List Telegram → List Telegram
  | [] => [t]
  | x :: xs => if t.priority < x.priority then t :: x :: xs else x :: insertTelegram t xs

/-- The candidate to go: in queue order the last displaceable telegram, which is the youngest of the greatest kind
priority number present (R135); with the queue that is left. -/
def takeCandidate : List Telegram → Option (Telegram × List Telegram)
  | [] => none
  | x :: xs =>
    match takeCandidate xs with
    | some (y, ys) => some (y, x :: ys)
    | none => if x.displaceable then some (x, xs) else none

/-- What the queue does with a telegram handed in. -/
inductive Intake where
  | taken (queue : List Telegram)
  | displacing (gone : Telegram) (queue : List Telegram)
  | notTaken
  deriving DecidableEq, Repr

/-- R135 and R136. A full queue without a candidate is ruled out by R136; there the telegram is not taken (log 15). -/
def Bus.intake (t : Telegram) (b : Bus) : Intake :=
  if b.size < Config.queueCapacity then .taken (insertTelegram t b.queue)
  else
    match takeCandidate b.queue with
    | some (gone, rest) =>
      if t.alwaysTaken || t.priority < gone.priority then .displacing gone (insertTelegram t rest) else .notTaken
    | none => .notTaken

/-- The waiting telegrams replaced. -/
def State.setQueue (q : List Telegram) (s : State) : State := { s with bus := { s.bus with queue := q } }

/-- Waiting and held telegrams of one sort cancelled (R138); not counted as displaced. -/
def State.cancel (q : Telegram → Bool) (s : State) : State :=
  { s with bus := { s.bus with queue := s.bus.queue.filter (fun t => !q t),
                               held := s.bus.held.filter (fun t => !q t) } }

/-- A telegram held back until the one on the bus is carried (R134). -/
def State.hold (t : Telegram) (s : State) : State := { s with bus := { s.bus with held := s.bus.held ++ [t] } }

/-- A lost telegram is counted (R137). -/
def State.countLost (s : State) : State := s.count (fun c => { c with displaced := bump c.displaced })

end Sys2Proof.Machine
end

