-- ==== Sys2Proof/Machine/Channels.lean ====
section
/-! DEFINITION. The pump channels (chapter 3): entry into a state with all it carries (R58, R85, R112), the channels'
telegrams in the transmit queue (R84, R137), and each transition as one operation. -/

namespace Sys2Proof.Machine

/-! ## Writing channels and requests -/

/-- A channel changed. -/
def State.modChan (p : Pump) (f : Channel → Channel) (s : State) : State :=
  { s with pumps := { s.pumps with chan := s.pumps.chan.set p (f s.pumps.chan[p]) } }

/-- A request written; none removes it. -/
def State.setRequest (p : Pump) (r : Option Request) (s : State) : State :=
  { s with sched := { s.sched with request := s.sched.request.set p r } }

/-- The retry hold of a request set at the present moment (R94). -/
def State.setHold (p : Pump) (s : State) : State :=
  s.setRequest p ((s.request p).map (fun r => { r with hold := some s.now }))

/-- An evaluation event has happened (R90); several before the next evaluation are one (log 31). -/
def State.noteEval (s : State) : State := { s with sched := { s.sched with evalDue := true } }

/-- A pick event has happened (R100). DESIGN CHOICE (log 31): R100 does not say whether several pick events of one
command are several picks; the mark is one, so all that are noted before the next pick make one attempt. -/
def State.notePick (s : State) : State := { s with sched := { s.sched with pickDue := true } }

/-! ## Entering a state -/

/-- The freeze of the levels follows a channel from `old` to `new` (R112). -/
def State.followFreeze (old new : ChanState) (s : State) : State :=
  if new.moves then { s with levels := { s.levels with freeze := .frozen, holdOver := none } }
  else if old.moves && !s.moving then
    { s with levels := { s.levels with freeze := .holdOver, holdOver := some s.now } }
  else s

/-- A change of state that is a pick event (R85, R100): leaving BIDDING or CONTENDING, entering or leaving
STARTING. -/
def pickMove (old new : ChanState) : Bool :=
  (old.inContest && new ≠ old) || new = .starting || old = .starting

/-- The scheduler's events of a change of state (R85): entry into IDLE is an evaluation event. They join the events
already noted (log 31). -/
def State.noteMove (old new : ChanState) (s : State) : State :=
  { s with sched := { s.sched with evalDue := s.sched.evalDue || new = .idle,
                                   pickDue := s.sched.pickDue || pickMove old new } }

/-- A channel enters a state: its run line is asserted in STARTING and RUNNING alone and released at every other
entry (R58); the change is handed to the level monitor and the scheduler at that moment (R85). -/
def State.enter (p : Pump) (new : ChanState) (s : State) : State :=
  State.noteMove (s.chan p).state new
    (State.followFreeze (s.chan p).state new
      (s.modChan p (fun c => { c with state := new, runLine := new.drives })))

/-- Return to QUEUED: the claim descriptor becomes absent, the contest timer stands still (R60). -/
def State.toQueued (p : Pump) (s : State) : State :=
  State.enter p .queued (s.modChan p (fun c => { c with claim := none, contest := none }))

/-- Return to QUEUED with the retry hold set (R94). -/
def State.toQueuedHeld (p : Pump) (s : State) : State := State.setHold p (s.toQueued p)

/-- The available state (R59). -/
def State.available (p : Pump) (s : State) : State :=
  if !s.auto p then s.enter p .localOff
  else if s.gangStopped p then s.enter p .locked
  else s.enter p .idle

/-! ## The channels' telegrams in the queue -/

/-- The channel waits on this very bid: it is BIDDING under this bid number. -/
def State.bidsUnder (s : State) (p : Pump) (b : BidNumber) : Bool :=
  (s.chan p).state = .bidding && (s.chan p).claim.any (fun d => d.bid = b)

/-- The channel contests this very bid: it is CONTENDING under this bid number. -/
def State.contendsUnder (s : State) (p : Pump) (b : BidNumber) : Bool :=
  (s.chan p).state = .contending && (s.chan p).claim.any (fun d => d.bid = b)

/-- The pending-ask slot emptied (R137). -/
def State.clearSlot (s : State) : State := { s with resp := { s.resp with slot := none } }

/-- What the block that queued a displaced telegram does (R137): a displaced BID returns its channel to QUEUED with
the retry hold clear. -/
def State.loseDisplaced (t : Telegram) (s : State) : State :=
  match t with
  | .bid c => if s.bidsUnder c.pump c.bid then s.countLost.toQueued c.pump else s.countLost
  | .answer => s.countLost.clearSlot
  | .veto _ => s.countLost
  | .roll => s.countLost
  | .drop _ => s.countLost
  | .run _ => s.countLost
  | .commit _ => s.countLost

/-- A RUN or DROP handed in: always taken (R136). -/
def State.handForced (t : Telegram) (s : State) : State :=
  match s.bus.intake t with
  | .taken q => s.setQueue q
  | .displacing gone q => State.loseDisplaced gone (s.setQueue q)
  | .notTaken => s.countLost

/-- A channel queues a DROP (R84): a waiting or held RUN of its own is removed first, and the DROP is not queued
while another of the channel waits or is on the bus. -/
def State.queueDrop (p : Pump) (reason : DropReason) (s : State) : State :=
  let s := s.cancel (Telegram.isRunOf p)
  if s.bus.waits (Telegram.isDropOf p) || s.bus.carries (Telegram.isDropOf p) then s
  else s.handForced (.drop ⟨p, reason⟩)

/-- The RUN of a claim descriptor (R63): main and load from the pump record. -/
def State.runOf (s : State) (p : Pump) (d : ClaimDesc) : RunFields :=
  ⟨p, s.img.main p, s.img.load p, d.cls, d.bid, d.manual, d.island⟩

/-- A channel queues the RUN of its claim descriptor (R84): a waiting RUN of its own is removed first; while a RUN of
the channel is on the bus and a DROP of it waits, the new RUN is held. -/
def State.queueRun (p : Pump) (s : State) : State :=
  match (s.chan p).claim with
  | none => s
  | some d =>
    let s := s.cancel (Telegram.isRunOf p)
    if s.bus.carries (Telegram.isRunOf p) && s.bus.waits (Telegram.isDropOf p) then
      s.hold (.run (s.runOf p d))
    else s.handForced (.run (s.runOf p d))

/-- What the block that queued an untaken telegram does (R137): a BID not taken returns its channel to QUEUED with
the hold set (R60); a COMMIT not taken ends the contest, with a DROP (WITHDRAWN) (R38). -/
def State.loseUntaken (t : Telegram) (s : State) : State :=
  match t with
  | .bid c => if s.bidsUnder c.pump c.bid then s.countLost.toQueuedHeld c.pump else s.countLost
  | .commit c =>
    if s.contendsUnder c.pump c.bid then
      State.queueDrop c.pump .withdrawn (s.countLost.toQueuedHeld c.pump)
    else s.countLost
  | .answer => s.countLost.clearSlot
  | .veto _ => s.countLost
  | .roll => s.countLost
  | .drop _ => s.countLost
  | .run _ => s.countLost

/-- A telegram handed in to the transmit queue (R135, R137). -/
def State.handIn (t : Telegram) (s : State) : State :=
  match s.bus.intake t with
  | .taken q => s.setQueue q
  | .displacing gone q => State.loseDisplaced gone (s.setQueue q)
  | .notTaken => s.loseUntaken t

/-- A ROLL handed in: absorbed while one waits, held back while one is on the bus (R134, R143). While one is on the bus
and another is held already, the new one is absorbed: the model's choice (log 24). -/
def State.handInRoll (s : State) : State :=
  if s.bus.waits (· = .roll) || s.bus.held.any (· = .roll) then s
  else if s.bus.carries (· = .roll) then s.hold .roll
  else s.handIn .roll

/-- A BID handed in: held back while one is on the bus (R134). -/
def State.handInBid (c : ClaimFields) (s : State) : State :=
  if s.bus.carries (fun t => match t with | .bid _ => true | _ => false) then s.hold (.bid c)
  else s.handIn (.bid c)

/-! ## Stops -/

/-- The claim ends: its DROP is queued and the descriptor becomes absent. -/
def State.dropClaim (p : Pump) (reason : DropReason) (s : State) : State :=
  (s.queueDrop p reason).modChan p (fun c => { c with claim := none })

/-- Entry into RESTING: the rest timer starts; a minimum rest of 0 expires at once (R72). -/
def State.enterResting (p : Pump) (s : State) : State :=
  let s := s.enter p .resting
  if (s.img.pumps[p]).minRest = 0 then s.available p
  else s.modChan p (fun c => { c with rest := some s.now })

/-- The drop reason of a stop reason (R70). -/
def StopReason.drop : Option StopReason → DropReason
  | some .shed => .shed
  | some .stopped => .stopped
  | none => .stopped

/-- A stop is confirmed (R70). -/
def State.confirmStop (p : Pump) (s : State) : State :=
  let s := s.dropClaim p (StopReason.drop (s.chan p).stopReason)
  State.enterResting p (s.modChan p (fun c => { c with stopReason := none, stopConfirm := none }))

/-- Entry into STOPPING with a stop reason (R68); FEEDBACK already released confirms the stop at once. -/
def State.stop (p : Pump) (reason : StopReason) (s : State) : State :=
  let s := State.enter p .stopping
    (s.modChan p (fun c => { c with stopReason := some reason, currentRun := none, startConfirm := none,
                                    stopConfirm := some s.now }))
  if s.feedback p then s else s.confirmStop p

/-- Entry into TRIPPED on an asserted OVERLOAD (R73). The stop reason is left as it was (log 11). -/
def State.trip (p : Pump) (s : State) : State :=
  let s := State.enter p .tripped
    (s.modChan p (fun c => { c with startConfirm := none, stopConfirm := none, currentRun := none,
                                    tripAck := false }))
  if s.feedback p then s else s.dropClaim p .trip

/-- A stop for shedding of a STARTING or RUNNING channel, counted (R51, R80). -/
def State.shedStop (p : Pump) (s : State) : State :=
  State.stop p .shed (s.count (fun c => { c with sheds := bump c.sheds }))

/-- A RUNNING channel tests its stop conditions (R66, R67). -/
def State.testStop (p : Pump) (s : State) : State :=
  if (s.chan p).state = .running && s.stopHolds p then s.stop p .stopped else s

/-- Every RUNNING channel tests its stop conditions, in ascending pump order (log 23). -/
def State.testStops (s : State) : State := allPumps.foldl (fun s p => s.testStop p) s

/-! ## Starts -/

/-- Entry into RUNNING: the current run time starts from 0, the RUN of the claim is queued and the stop conditions
are tested (R63, R65, R67). -/
def State.beginRunning (p : Pump) (s : State) : State :=
  let s := State.enter p .running
    (s.modChan p (fun c => { c with currentRun := some 0, startConfirm := none }))
  (s.queueRun p).testStop p

/-- The start is confirmed by FEEDBACK (R63): the last start duration runs from the assertion of the run line, which
is the moment the start-confirm timer started. -/
def State.confirmStart (p : Pump) (s : State) : State :=
  State.beginRunning p
    (s.modChan p (fun c => { c with lastStart := c.startConfirm.map (fun t => min (s.now - t) Config.startDurationMax) }))

/-- Entry into STARTING (R63): the request goes, the run line is asserted, the start-confirm timer starts. A FEEDBACK
already asserted is taken as the rise at that moment, unless OVERLOAD is asserted too and the channel trips (R73,
log 12). -/
def State.enterStarting (p : Pump) (s : State) : State :=
  let s := State.enter p .starting
    ((s.setRequest p none).modChan p (fun c => { c with contest := none, startConfirm := some s.now }))
  if s.feedback p && !s.overload p then s.confirmStart p else s

/-! ## Hand control -/

/-- The descriptor of a pump under hand control with no claim of the channel's making (R77). -/
def State.handClaim (s : State) : ClaimDesc := ⟨1, s.pumps.bidNumber, true, false⟩

/-- Entry into LOCAL_RUN of a pump that runs without a claim (R77). -/
def State.enterLocalRun (p : Pump) (s : State) : State :=
  State.queueRun p (State.enter p .localRun
    ((s.setRequest p none).modChan p (fun c => { c with rest := none, claim := some s.handClaim })))

/-- A RUNNING pump handed to local control on the release of AUTO: it keeps its bid number (R76, R77). -/
def State.handOver (p : Pump) (s : State) : State :=
  State.queueRun p (State.enter p .localRun
    (s.modChan p (fun c => { c with currentRun := none,
                                    claim := c.claim.map (fun d => ⟨1, d.bid, true, false⟩) })))

/-- The two conditions of R78 for a return to automatic control: the latest RUN the channel queued has been
self-received, so none of its RUNs waits, is on the bus or is held, and the own table holds its entry. -/
def State.handReturnable (s : State) (p : Pump) : Bool :=
  (s.chan p).state = .localRun && s.auto p && !s.bus.has (Telegram.isRunOf p) && (s.entry s.own p).isSome

/-- A LOCAL_RUN pump returns to automatic control where the conditions of R78 hold. With OVERLOAD asserted the RUN is
queued and the stops are tested first, and the trip of R73 follows at the settling: the model's choice (log 12). -/
def State.handReturn (p : Pump) (s : State) : State :=
  if s.handReturnable p then
    State.beginRunning p
      (s.modChan p (fun c => { c with claim := c.claim.map (fun d => ⟨2, d.bid, false, false⟩) }))
  else s

/-! ## Withdrawal (2.6) -/

/-- The telegrams and the claim of a withdrawn channel (R46, R47). The caller enters the state its cause requires. The
waiting COMMIT goes before the DROP is queued, which R47 leaves open: the model's choice (log 27). -/
def State.withdraw (p : Pump) (s : State) : State :=
  match (s.chan p).state with
  | .bidding =>
    let s := s.cancel (Telegram.isBidOf p)
    let s := if s.bus.carries (Telegram.isBidOf p) then s.queueDrop p .withdrawn else s
    s.modChan p (fun c => { c with claim := none })
  | .contending =>
    let s := (s.cancel (Telegram.isCommitOf p)).queueDrop p .withdrawn
    s.modChan p (fun c => { c with claim := none, contest := none })
  | _ => s

/-- A channel in QUEUED, BIDDING or CONTENDING loses its request, with a withdrawal where a claim is in hand (R62). -/
def State.loseRequest (p : Pump) (s : State) : State := (s.withdraw p).setRequest p none

/-- A state in which the channel holds a request (R88). -/
def ChanState.requests : ChanState → Bool
  | .queued => true
  | .bidding => true
  | .contending => true
  | _ => false

/-- Withdrawal to QUEUED with the request kept, on isolation or a digest mismatch (R62, R81). -/
def State.withdrawToQueued (p : Pump) (s : State) : State :=
  if (s.chan p).state.inContest then (s.withdraw p).toQueued p else s

/-- Every channel in BIDDING or CONTENDING withdrawn to QUEUED, in ascending pump order (log 23). -/
def State.withdrawAll (s : State) : State := allPumps.foldl (fun s p => s.withdrawToQueued p) s

/-! ## Conditions that act whenever they hold -/

/-- What holds of a channel at every moment: a TRIPPED channel leaves once the conditions of R75 hold; OVERLOAD trips
a channel that is starting, running or stopping (R73); FEEDBACK takes an idle channel to LOCAL_RUN (R77). -/
def State.heedLines (p : Pump) (s : State) : State :=
  let s := if s.tripReleasable p then s.enterResting p else s
  let s := if s.overload p && (s.chan p).state.trips then s.trip p else s
  if s.feedback p && (s.chan p).state.yieldsToHand then s.enterLocalRun p else s

/-- The same of every channel, in ascending pump order (log 23). -/
def State.heedAllLines (s : State) : State := allPumps.foldl (fun s p => s.heedLines p) s

end Sys2Proof.Machine
end

