-- ==== Sys2Proof/Machine/Claims.lean ====
section
/-! DEFINITION. The claim table and the admission judge (chapters 1 and 2): insertion and removal, the hand-offs of a
change of the table, shed selection, and what each claim telegram does to the table. -/

namespace Sys2Proof.Machine

/-! ## The entries (1.2) -/

/-- Place in the table order: owner, then pump (R2). -/
def Entry.key (e : Entry) : Nat := 6 * e.owner.val + e.pump.val

/-- An entry placed in table order (R2, R3). Insertion is asked for only where the pair has no entry (R3); a pair that
has one keeps one (log 15). -/
def insertEntry (e : Entry) : List Entry → List Entry
  | [] => [e]
  | x :: xs =>
    if e.key < x.key then e :: x :: xs else if e.key = x.key then e :: xs else x :: insertEntry e xs

/-- The entry of an owner and pump removed; the entries behind it close up (R5). -/
def removeEntry (o : Station) (p : Pump) (es : List Entry) : List Entry := es.filter (fun e => !e.isFor o p)

/-- The fields of an entry but owner, pump and orphan. -/
structure EntryFields where
  main : Main
  load : Nat
  cls : Class
  state : ClaimState
  bid : BidNumber
  manual : Bool
  island : Bool
  deriving DecidableEq, Repr

/-- An entry of these fields. -/
def EntryFields.entry (f : EntryFields) (o : Station) (p : Pump) (orphan : Bool) : Entry :=
  ⟨o, p, f.main, f.load, f.cls, f.state, f.bid, f.manual, f.island, orphan⟩

/-- An entry with these fields written; owner, pump and orphan stay. -/
def Entry.write (f : EntryFields) (e : Entry) : Entry := f.entry e.owner e.pump e.orphan

/-- The entry of an owner and pump overwritten. -/
def overwriteEntry (o : Station) (p : Pump) (f : EntryFields) (es : List Entry) : List Entry :=
  es.map (fun e => if e.isFor o p then e.write f else e)

/-- The table's entries replaced. -/
def State.setEntries (es : List Entry) (s : State) : State := { s with claims := { s.claims with entries := es } }

/-- A roster record. -/
def State.rosterOf (s : State) (a : Station) : RosterRecord := s.claims.roster[a]

/-- A failed insertion: TABLE_FULL is recorded and its condition is in force (R4). -/
def State.insertFails (s : State) : State :=
  State.reportCondition (bareKey .tableFull) { s with claims := { s.claims with full := true } }

/-- Insertion (R3, R4). It succeeds exactly when the table has room; the orphan mark is the owner's silent mark. -/
def State.insertClaim (o : Station) (p : Pump) (f : EntryFields) (s : State) : State :=
  if s.hasRoom then s.setEntries (insertEntry (f.entry o p (s.rosterOf o).silent) s.claims.entries)
  else s.insertFails

/-! ## Shed selection (2.7) -/

/-- Eligible as a shed victim (R50). -/
def Entry.sheddable (e : Entry) : Bool :=
  e.state = .running && (e.cls = 2 || e.cls = 3) && !e.orphan && !e.manual && !e.island

/-- Ranks above another as a victim: class, then owner, then pump (R50). -/
def Entry.outranks (e x : Entry) : Bool :=
  x.cls < e.cls || (e.cls = x.cls && (x.owner < e.owner || (e.owner = x.owner && x.pump < e.pump)))

/-- The victim among entries; none if none is eligible (R50). -/
def victim : List Entry → Option Entry
  | [] => none
  | e :: es =>
    match victim es with
    | none => if e.sheddable then some e else none
    | some x => if e.sheddable && e.outranks x then some e else some x

/-- A shed evaluation: the station stops its own pump if the victim is its own and its channel is RUNNING (R50,
R51). -/
def State.shed (s : State) : State :=
  match victim s.claims.entries with
  | none => s
  | some e => if e.owner = s.own && (s.chan e.pump).state = .running then s.shedStop e.pump else s

/-- A judging station over budget evaluates shedding (R49). -/
def State.shedIfOver (s : State) : State := if s.judging && s.overBudget then s.shed else s

/-! ## Hand-offs of a change of the table (R6, R7, R22, R26) -/

/-- The OVER_BUDGET condition follows the counted load, which was `was` before (R48). -/
def State.followBudget (was : Nat) (s : State) : State :=
  if was ≤ s.img.cap && s.img.cap < s.countedLoad then s.reportCondition (bareKey .overBudget)
  else if s.img.cap < was && s.countedLoad ≤ s.img.cap then s.reportEnd (bareKey .overBudget)
  else s

/-- The TABLE_FULL condition ends once an entry is free (R4). -/
def State.followRoom (s : State) : State :=
  if s.claims.full && s.hasRoom then
    State.reportEnd (bareKey .tableFull) { s with claims := { s.claims with full := false } }
  else s

/-- The effects of a change of the table, handed on once when the telegram's action is complete: the new counted load
to the admission judge, the change to the scheduler as a pick event, a free entry to the fault file (R22, R26, R100;
the order among them is log 7's). `was` are the entries before. -/
def State.handOn (was : List Entry) (s : State) : State :=
  let s := s.followBudget (loadOf was)
  let s := if loadOf was ≠ s.countedLoad then s.shedIfOver else s
  let s := if s.claims.entries ≠ was then s.notePick else s
  s.followRoom

/-- An action on the table, its effects handed on at its end. -/
def State.onTable (act : State → State) (s : State) : State := State.handOn s.claims.entries (act s)

/-! ## BID (2.2) -/

/-- The six refusal tests in their order; none admits the bid (R28). -/
def State.judge (s : State) (o : Station) (c : ClaimFields) : Option RefusalReason :=
  if (s.entry o c.pump).isSome then some .duplicate
  else if !s.img.member c.main o then some .membership
  else if s.busy c.main then some .mainBusy
  else if s.img.cap < s.countedLoad + c.load then some .budget
  else if c.cls ≠ 0 && s.img.cap - s.img.reserve < s.countedLoad + c.load then some .reserve
  else if !s.hasRoom then some .tableFull
  else none

/-- A HELD entry of a bid (R30). -/
def heldOf (c : ClaimFields) : EntryFields := ⟨c.main, c.load, c.cls, .held, c.bid, false, false⟩

/-- The fault a refusal records (R29). -/
def State.refusalFault (o : Station) (c : ClaimFields) (r : RefusalReason) (s : State) : State :=
  match r with
  | .membership => s.reportEvent ⟨.membership, none, some o.addr, some c.main⟩
  | .tableFull => s.insertFails
  | .duplicate => s
  | .mainBusy => s
  | .budget => s
  | .reserve => s

/-- A judging station on a BID: admitted it enters as HELD (R30), refused it queues a VETO (R29, R31). -/
def State.judgeBid (o : Station) (c : ClaimFields) (s : State) : State :=
  match s.judge o c with
  | none => s.onTable (State.insertClaim o c.pump (heldOf c))
  | some r => (s.refusalFault o c r).handIn (.veto ⟨o, c.pump, c.bid, r⟩)

/-- A learning station on a BID: it only records it (R32). -/
def State.learnBid (o : Station) (c : ClaimFields) (s : State) : State :=
  if (s.entry o c.pump).isSome then s else s.onTable (State.insertClaim o c.pump (heldOf c))

/-- A BID received (R27). -/
def State.onBid (o : Station) (c : ClaimFields) (s : State) : State :=
  if s.judging then s.judgeBid o c else s.learnBid o c

/-! ## VETO (2.3) -/

/-- A contest of this bid at the own channel ends (R36). -/
def State.endContest (p : Pump) (b : BidNumber) (s : State) : State :=
  if s.contendsUnder p b then
    State.count (fun c => { c with bidsVetoed := bump c.bidsVetoed })
      ((s.cancel (Telegram.isCommitOf p)).toQueuedHeld p)
  else s

/-- What a VETO does to the table (R35): a HELD entry of the same bid number is removed; too late for a STARTING or
RUNNING one, where the owner records LATE_VETO (R37); otherwise it is ignored. -/
def State.vetoEntry (src : Addr) (v : VetoFields) (s : State) : State :=
  match s.entry v.owner v.pump with
  | none => s
  | some e =>
    if e.bid = v.bid then
      if e.state = .held then s.onTable (fun s => s.setEntries (removeEntry v.owner v.pump s.claims.entries))
      else if v.owner = s.own then s.reportEvent (peerKey .lateVeto src)
      else s
    else s

/-- A VETO received (R34 to R37). -/
def State.onVeto (src : Addr) (v : VetoFields) (s : State) : State :=
  let s := s.cancel (Telegram.isVetoFor v.owner v.pump v.bid)
  let s := s.vetoEntry src v
  if v.owner = s.own then s.endContest v.pump v.bid else s

/-! ## COMMIT (2.4) -/

/-- The STARTING entry of a COMMIT (R40). -/
def startedOf (c : ClaimFields) : EntryFields := ⟨c.main, c.load, c.cls, .starting, c.bid, false, false⟩

/-- DIVERGENCE, with a peer and no pump or main (R20, R40, R42). -/
def State.diverges (o : Station) (s : State) : State := s.reportEvent (peerKey .divergence o.addr)

/-- What a COMMIT does to the table (R40). -/
def State.commitEntry (o : Station) (c : ClaimFields) (s : State) : State :=
  match s.entry o c.pump with
  | some e =>
    if e.bid = c.bid then
      if e.state = .held then
        s.setEntries (s.claims.entries.map (fun x => if x.isFor o c.pump then { x with state := .starting } else x))
      else s
    else State.diverges o (s.setEntries (overwriteEntry o c.pump (startedOf c) s.claims.entries))
  | none =>
    if s.hasRoom then (s.insertClaim o c.pump (startedOf c)).diverges o else s.insertFails

/-- A COMMIT received (R34, R40). -/
def State.onCommit (o : Station) (c : ClaimFields) (s : State) : State :=
  (s.cancel (Telegram.isVetoFor o c.pump c.bid)).onTable (State.commitEntry o c)

/-! ## RUN and DROP (2.5) -/

/-- The RUNNING entry of a RUN (R42). -/
def runningOf (r : RunFields) : EntryFields := ⟨r.main, r.load, r.cls, .running, r.bid, r.manual, r.island⟩

/-- Whether a RUN that meets this entry records DIVERGENCE (R42). -/
def runDiverges (r : RunFields) (e : Entry) : Bool :=
  e.state = .held || (e.bid ≠ r.bid && !r.manual)

/-- What a RUN does to the table (R42). -/
def State.runEntry (o : Station) (r : RunFields) (s : State) : State :=
  match s.entry o r.pump with
  | some e =>
    let s := s.setEntries (overwriteEntry o r.pump (runningOf r) s.claims.entries)
    if runDiverges r e then s.diverges o else s
  | none =>
    if s.hasRoom then
      let s := s.insertClaim o r.pump (runningOf r)
      if r.manual then s else s.diverges o
    else s.insertFails

/-- A RUN sets the last settle time of its main (R8, R43). -/
def State.settleMain (m : Main) (s : State) : State :=
  { s with claims := { s.claims with settle := s.claims.settle.set m (some s.now) } }

/-- A RUN or DROP clears the retry hold of every request, a pick event (R95, R100). -/
def State.clearHolds (s : State) : State :=
  State.notePick
    { s with sched := { s.sched with
        request := mapSix (fun r => r.map (fun q => { q with hold := none })) s.sched.request } }

/-- A RUN received (R42, R43). -/
def State.onRun (o : Station) (r : RunFields) (s : State) : State :=
  ((s.onTable (State.runEntry o r)).settleMain r.main).clearHolds

/-- A DROP received (R43, R44). -/
def State.onDrop (o : Station) (d : DropFields) (s : State) : State :=
  (s.onTable (fun s => s.setEntries (removeEntry o d.pump s.claims.entries))).clearHolds

/-! ## Reconciliation on ROLL (1.5) -/

/-- The fields a ROLL descriptor writes. -/
def listedOf (d : Descriptor) : EntryFields := ⟨d.main, d.load, d.cls, d.state, d.bid, d.manual, d.island⟩

/-- Pass 1: entries of o whose pump is not listed go (R19). -/
def reconcileRemove (o : Station) (ds : List Descriptor) (es : List Entry) : List Entry :=
  es.filter (fun e => e.owner ≠ o || ds.any (fun d => d.pump = e.pump))

/-- Pass 2: entries of o whose pump is listed take the listed fields (R19). -/
def reconcileOverwrite (o : Station) (ds : List Descriptor) (es : List Entry) : List Entry :=
  ds.foldl (fun es d => overwriteEntry o d.pump (listedOf d) es) es

/-- Pass 3: a listed pump without an entry is inserted; on a full table each such creation fails (R19, R4). -/
def State.reconcileCreate (o : Station) (d : Descriptor) (s : State) : State :=
  if (s.entry o d.pump).isSome then s else s.insertClaim o d.pump (listedOf d)

/-- The listed descriptor of one pump. -/
def listedFor (ds : List Descriptor) (p : Pump) : Option Descriptor := ds.find? (fun d => d.pump = p)

/-- The three passes, creation in ascending pump order (R19). -/
def State.reconcilePasses (o : Station) (ds : List Descriptor) (s : State) : State :=
  let s := s.setEntries (reconcileOverwrite o ds (reconcileRemove o ds s.claims.entries))
  allPumps.foldl (fun s p =>
    match listedFor ds p with
    | some d => s.reconcileCreate o d
    | none => s) s

/-- The passes, and one DIVERGENCE if they changed the table (R20). Where creations failed too, TABLE_FULL is reported
before it: the model's choice (log 7). -/
def State.reconcileEntries (o : Station) (ds : List Descriptor) (s : State) : State :=
  let t := s.reconcilePasses o ds
  if t.claims.entries ≠ s.claims.entries then t.diverges o else t

/-- Reconciliation of a peer's ROLL, handed on once (R18, R22). -/
def State.reconcile (o : Station) (ds : List Descriptor) (s : State) : State :=
  s.onTable (State.reconcileEntries o ds)

/-! ## PURGE (1.6) -/

/-- An obeyed PURGE: every entry of a silent peer is removed (R24). -/
def State.purge (subject : Addr) (s : State) : State :=
  match Addr.station? subject with
  | some o =>
    if o ≠ s.own && (s.rosterOf o).silent then
      s.onTable (fun s => s.setEntries (s.claims.entries.filter (fun e => e.owner ≠ o)))
    else s
  | none => s

end Sys2Proof.Machine
end

