-- ==== Sys2Proof/Machine/Levels.lean ====
section
/-! DEFINITION. The level monitor (chapter 5): samples and windows, the freeze, dry-run lockout, the delivery level
and its staleness, blind running. -/

namespace Sys2Proof.Machine

/-! ## Dry-run lockout (5.4) -/

/-- What the entry into lockout does at a channel (R81). -/
def State.lockoutAt (p : Pump) (s : State) : State :=
  match (s.chan p).state with
  | .starting => s.stop p .stopped
  | .running => s.stop p .stopped
  | .queued => (s.loseRequest p).available p
  | .bidding => (s.loseRequest p).available p
  | .contending => (s.loseRequest p).available p
  | _ => s

/-- Entry into dry-run lockout (R115): the channels act in ascending pump order (log 23). -/
def State.enterLockout (s : State) : State :=
  let s := State.reportCondition (bareKey .dryRun)
    { s with levels := { s.levels with lockout := true, lockoutUnrecorded := false } }
  State.noteEval (allPumps.foldl (fun s p => s.lockoutAt p) s)

/-- End of dry-run lockout (R116). A lockout that stood from reset unrecorded has no condition to end. -/
def State.endLockout (s : State) : State :=
  State.noteEval (State.reportEnd (bareKey .dryRun)
    { s with levels := { s.levels with lockout := false, lockoutUnrecorded := false } })

/-- The test of the lockout at a suction output (R114). -/
def State.testLockout (s : State) : State :=
  match s.levels.lockout, s.levels.a.output with
  | false, none => s.enterLockout
  | false, some n => if n ≤ s.img.dry then s.enterLockout else s
  | true, some n => if s.img.release ≤ n then s.endLockout else s
  | true, none => s

/-! ## The delivery level (5.5, 5.6) -/

/-- The peer of REMOTE_LEVEL_STALE: the station that measures the delivery tank (R119). -/
def State.levelPeer (s : State) : Addr :=
  match s.img.remoteSource with
  | some o => o.addr
  | none => s.loader.address

/-- The blind-run limit is reached (R120). -/
def State.reachBlindLimit (s : State) : State :=
  State.testStops { s with levels := { s.levels with blindReached := true } }

/-- Stale onset (R119); a limit of 0 s is reached at the onset (R120). -/
def State.staleOnset (s : State) : State :=
  let s := State.reportCondition (peerKey .remoteLevelStale s.levelPeer)
    { s with levels := { s.levels with staleUnrecorded := false, blindTimer := some s.now } }
  let s := s.noteEval.testStops
  if s.img.blindLimit = 0 then s.reachBlindLimit else s

/-- Return to freshness (R119). Staleness that stood from reset unrecorded has no condition to end. -/
def State.staleEnd (s : State) : State :=
  let s := State.reportEnd (peerKey .remoteLevelStale s.levelPeer)
    { s with levels := { s.levels with staleUnrecorded := false, blindTimer := none, blindReached := false } }
  s.noteEval.testStops

/-- A new delivery level: an evaluation event and a stop test (R90, R67). -/
def State.newDelivery (s : State) : State := s.noteEval.testStops

/-- The delivery level has been set; `was` says whether it was fresh before. A change of freshness is handed on
before the new level that comes with it (R119). -/
def State.deliverySet (was : Bool) (s : State) : State :=
  match was, s.delivery with
  | true, none => s.staleOnset
  | false, none => s
  | true, some _ => s.newDelivery
  | false, some _ => s.staleEnd.newDelivery

/-! ## Outputs of the inputs (5.2, 5.3) -/

/-- One of the two inputs. -/
def State.input (s : State) (i : LevelInput) : LevelChannel :=
  match i with
  | .a => s.levels.a
  | .b => s.levels.b

/-- One of the two inputs written. -/
def State.setInput (i : LevelInput) (c : LevelChannel) (s : State) : State :=
  match i with
  | .a => { s with levels := { s.levels with a := c } }
  | .b => { s with levels := { s.levels with b := c } }

/-- An output given to an input and handed on: A to the lockout test, B to the delivery level (R109, R113, R117). -/
def State.output (i : LevelInput) (out : Option Nat) (s : State) : State :=
  let was := s.delivery.isSome
  let s := s.setInput i { s.input i with output := out }
  match i with
  | .a => s.testLockout
  | .b => if s.img.localSource then s.deliverySet was else s

/-- The key of LEVEL_SENSOR: peer absent for A, the own address for B (R110). -/
def State.sensorKey (s : State) (i : LevelInput) : FaultKey :=
  match i with
  | .a => bareKey .levelSensor
  | .b => peerKey .levelSensor s.loader.address

/-- The span of an input (R108). -/
def State.span (s : State) (i : LevelInput) : Nat :=
  match i with
  | .a => s.img.spanA
  | .b => s.img.spanB

/-- A level appended to a window, the oldest of eight dropped first (R109). -/
def pushLevel (n : Nat) (w : List Nat) : List Nat :=
  (if w.length < Config.windowLength then w else w.drop 1) ++ [n]

/-- An input that was invalid becomes valid when its window is full again; its LEVEL_SENSOR condition ends (R111). -/
def State.refill (i : LevelInput) (s : State) : State :=
  if !(s.input i).valid && (s.input i).filtered.isSome then
    State.reportEnd (s.sensorKey i) (s.setInput i { s.input i with valid := true })
  else s

/-- An in-range sample (R109, R111, R113): it enters the window, and a full window gives a new output unless the
outputs are frozen. -/
def State.goodSample (i : LevelInput) (x : BitVec 12) (s : State) : State :=
  let s := s.setInput i { s.input i with window := pushLevel (sampleLevel (s.span i) x) (s.input i).window,
                                         outOfRange := 0 }
  let s := s.refill i
  if (s.input i).filtered.isSome && s.levels.freeze = .opened then s.output i (s.input i).filtered else s

/-- An out-of-range sample (R110): the third in a row empties the window and makes the output invalid at once, even
under a freeze. LEVEL_SENSOR is reported before the invalid output is handed on: the model's choice (log 7). -/
def State.badSample (i : LevelInput) (s : State) : State :=
  let c := s.input i
  if c.outOfRange + 1 < Config.sensorFailureCount then s.setInput i { c with outOfRange := c.outOfRange + 1 }
  else
    let was := s.delivery.isSome
    let s := s.setInput i { c with outOfRange := 0, window := [], output := none, valid := false }
    let s := if c.valid then s.reportCondition (s.sensorKey i) else s
    match i with
    | .a => s.testLockout
    | .b => if s.img.localSource then s.deliverySet was else s

/-- A sample taken from an input (R107, R108); its timer restarts. -/
def State.takeSample (i : LevelInput) (x : BitVec 12) (s : State) : State :=
  let s := s.setInput i { s.input i with sampleTimer := some s.now }
  if sampleInRange x then s.goodSample i x else s.badSample i

/-- The end of the freeze (R113): each sampled input's output is set from its window and handed on, A before B (the
order is the model's choice, log 7). -/
def State.endFreeze (s : State) : State :=
  let s := { s with levels := { s.levels with freeze := .opened, holdOver := none } }
  let s := if s.levels.a.sampleTimer.isSome then s.output .a s.levels.a.filtered else s
  if s.levels.b.sampleTimer.isSome then s.output .b s.levels.b.filtered else s

/-! ## The remote level (R118) -/

/-- A well-formed ROLL from the source station states this suction level. -/
def State.remoteLevel (src : Station) (l : Level) (s : State) : State :=
  if !s.img.localSource && s.img.remoteSource = some src then
    let was := s.delivery.isSome
    State.deliverySet was
      { s with levels := { s.levels with remote := match l with
                                                   | .cm n => some n
                                                   | .invalid => none } }
  else s

/-- The source station is marked silent. -/
def State.remoteSilent (src : Station) (s : State) : State :=
  if !s.img.localSource && s.img.remoteSource = some src then
    let was := s.delivery.isSome
    State.deliverySet was { s with levels := { s.levels with remote := none } }
  else s

end Sys2Proof.Machine
end

