-- ==== Sys2Proof/Machine/Scheduler.lean ====
section
/-! DEFINITION. The demand scheduler (chapter 4): demand classes, evaluation, eligibility, picking, the start of a
bid and the island start (R60, R82), and the settling of a step, in which the evaluation and pick events it made are
taken (log 6). -/

namespace Sys2Proof.Machine

/-! ## Demand (4.1) -/

/-- The lowest class whose condition holds (R86). -/
def State.demandClass (s : State) (p : Pump) : Option Class :=
  if s.field.fireDemand then some 0
  else if s.deliveryAtMost s.img.critical then some 1
  else if s.deliveryAtMost (s.img.pumps[p]).startLevel then some 2
  else if s.field.offPeak && s.deliveryAtMost s.img.topUp then some 3
  else none

/-- The further conditions of demand (R87). -/
def State.demandAllowed (s : State) (p : Pump) : Bool :=
  s.inUse p && s.auto p && !s.gangStopped p && !(s.chan p).serviceBlock && !s.levels.lockout
    && !s.deliveryAtLeast s.img.highHigh

/-- The channel's demand (R86, R87). -/
def State.demand (s : State) (p : Pump) : Option Class := if s.demandAllowed p then s.demandClass p else none

/-! ## Evaluation (4.3) -/

/-- A standing request takes the class of the evaluation; a change of class is a pick event (R91, R92). -/
def State.reclass (p : Pump) (c : Class) (s : State) : State :=
  match s.request p with
  | some r => if r.cls = c then s else State.notePick (s.setRequest p (some { r with cls := c }))
  | none => s

/-- The treatment of one channel at an evaluation (R91). -/
def State.evaluateAt (p : Pump) (s : State) : State :=
  match (s.chan p).state with
  | .idle =>
    match s.demand p with
    | some c => State.notePick (State.enter p .queued (s.setRequest p (some ⟨c, s.now, none⟩)))
    | none => s
  | .queued =>
    match s.demand p with
    | some c => s.reclass p c
    | none => (s.loseRequest p).available p
  | .bidding =>
    match s.demand p with
    | some c => s.reclass p c
    | none => (s.loseRequest p).available p
  | .contending =>
    match s.demand p with
    | some c => s.reclass p c
    | none => (s.loseRequest p).available p
  | _ => s

/-- Demand evaluated for all channels together (R90), taken in ascending pump order (log 23). -/
def State.evaluate (s : State) : State :=
  allPumps.foldl (fun s p => s.evaluateAt p) { s with sched := { s.sched with evalDue := false } }

/-! ## Eligibility (4.5) -/

/-- The admission precheck (R98). -/
def State.precheck (s : State) (p : Pump) (c : Class) : Bool :=
  (s.entry s.own p).isNone && !s.busy (s.img.main p)
    && s.countedLoad + s.img.load p ≤ s.img.cap
    && (c = 0 || s.countedLoad + s.img.load p ≤ s.img.cap - s.img.reserve)
    && s.hasRoom

/-- The island test (R99). -/
def State.islandTest (s : State) (p : Pump) (c : Class) : Bool :=
  (c = 0 || c = 1)
    && s.ownLoad + s.img.load p ≤ s.img.allowance
    && !allPumps.any (fun q => (s.chan q).state = .starting && s.img.main q = s.img.main p)
    && !s.bus.waits (Telegram.isDropOf p) && !s.bus.carries (Telegram.isDropOf p)

/-- The mode's part of eligibility (R96): the precheck in ACTIVE, the island test in ISOLATED, nothing else. -/
def State.modeAllows (s : State) (p : Pump) (c : Class) : Bool :=
  match s.ctl.mode with
  | .active => s.ctl.mismatch.isNone && s.precheck p c
  | .isolated => s.islandTest p c
  | .listen => false
  | .loading => false
  | .halted => false

/-- A request is eligible for picking (R96). -/
def State.eligible (s : State) (p : Pump) : Bool :=
  match s.request p with
  | some r =>
    r.hold.isNone && (s.chan p).state = .queued && !s.bidInFlight && s.modeAllows p r.cls
      && (!s.ctl.hold || r.cls = 0) && !s.busy (s.img.main p) && s.guardPassed (s.img.main p)
  | none => false

/-- An eligible request of this class. -/
def State.eligibleIn (s : State) (c : Class) (p : Pump) : Bool :=
  s.eligible p && (s.request p).any (fun r => r.cls = c)

/-- Some eligible request is of this class. -/
def State.anyEligible (s : State) (c : Class) : Bool := allPumps.any (s.eligibleIn c)

/-! ## Picking (4.6) -/

/-- The arrival time of a request. -/
def State.arrival (s : State) (p : Pump) : Nat :=
  match s.request p with
  | some r => r.arrival
  | none => 0

/-- p is picked before q: older arrival, then less total run time, then lower pump (R103). -/
def State.before (s : State) (p q : Pump) : Bool :=
  s.arrival p < s.arrival q
    || (s.arrival p = s.arrival q
        && ((s.chan p).totalSeconds < (s.chan q).totalSeconds
            || ((s.chan p).totalSeconds = (s.chan q).totalSeconds && p < q)))

/-- The pump to pick among some, all eligible in one class (R103). -/
def State.firstOf (s : State) : List Pump → Option Pump
  | [] => none
  | p :: ps =>
    match s.firstOf ps with
    | none => some p
    | some q => if s.before p q then some p else some q

/-- Held within the bounds of a credit (R102). -/
def clampCredit (n : Int) : Int := if n < -6 then -6 else if 6 < n then 6 else n

/-- Steps 1 and 2 of R102 at one class: no eligible request clears its credit, else its weight is added. -/
def addCredit (eligible : Bool) (weight credit : Int) : Int :=
  if eligible then clampCredit (credit + weight) else 0

/-- The weight a class adds, if it has an eligible request. -/
def weightIf (eligible : Bool) (weight : Int) : Int := if eligible then weight else 0

/-- Step 3 of R102: the class of 1 to 3 with an eligible request and the greatest credit, a tie to the lower. -/
def greatestCredit (e1 e2 e3 : Bool) (k : Credits) : Option Class :=
  if e1 && (!e2 || k.c2 ≤ k.c1) && (!e3 || k.c3 ≤ k.c1) then some 1
  else if e2 && (!e3 || k.c3 ≤ k.c2) then some 2
  else if e3 then some 3
  else none

/-- Step 4 of R102: the picked class pays. -/
def Credits.pay (c : Class) (sum : Int) (k : Credits) : Credits :=
  if c = 1 then { k with c1 := clampCredit (k.c1 - sum) }
  else if c = 2 then { k with c2 := clampCredit (k.c2 - sum) }
  else if c = 3 then { k with c3 := clampCredit (k.c3 - sum) }
  else k

/-- MIXED among classes 1 to 3 (R102): the class picked and the credits after. -/
def mixedPick (e1 e2 e3 : Bool) (k : Credits) : Option (Class × Credits) :=
  let added : Credits := ⟨addCredit e1 3 k.c1, addCredit e2 2 k.c2, addCredit e3 1 k.c3⟩
  match greatestCredit e1 e2 e3 added with
  | none => none
  | some c => some (c, added.pay c (weightIf e1 3 + weightIf e2 2 + weightIf e3 1))

/-- The class to pick from and the credits after (R101, R102); none if no request is eligible. -/
def State.pickClass (s : State) : Option (Class × Credits) :=
  if s.anyEligible 0 then some (0, s.sched.credits)
  else if s.img.strict then
    if s.anyEligible 1 then some (1, s.sched.credits)
    else if s.anyEligible 2 then some (2, s.sched.credits)
    else if s.anyEligible 3 then some (3, s.sched.credits)
    else none
  else mixedPick (s.anyEligible 1) (s.anyEligible 2) (s.anyEligible 3) s.sched.credits

/-- A picked channel in ACTIVE (R60, R61): it takes the bid number, the counter advances, it enters BIDDING and its
BID is handed in. -/
def State.startBid (p : Pump) (c : Class) (s : State) : State :=
  let b := s.pumps.bidNumber
  let s := { s with pumps := { s.pumps with bidNumber := b + 1#8 } }
  let s := State.enter p .bidding (s.modChan p (fun x => { x with claim := some ⟨c, b, false, false⟩ }))
  s.handInBid ⟨p, s.img.main p, s.img.load p, c, b⟩

/-- The entry of an island start (R82). -/
def State.islandFields (s : State) (p : Pump) (c : Class) : EntryFields :=
  ⟨s.img.main p, s.img.load p, c, .starting, s.pumps.bidNumber, false, true⟩

/-- An island start (R82): the entry goes into the own table and the channel to STARTING; on a full table the channel
stays QUEUED with its hold set. -/
def State.islandStart (p : Pump) (c : Class) (s : State) : State :=
  if s.hasRoom then
    let s := s.onTable (State.insertClaim s.own p (s.islandFields p c))
    State.enterStarting p
      (s.modChan p (fun x => { x with claim := some ⟨c, s.pumps.bidNumber, false, true⟩ }))
  else State.setHold p (s.onTable (State.insertClaim s.own p (s.islandFields p c)))

/-- The picked request handed to its channel (R104). -/
def State.handPick (p : Pump) (c : Class) (s : State) : State :=
  if s.ctl.mode = .active then s.startBid p c else s.islandStart p c

/-- A pick event is taken (R100): with no own bid in flight, one eligible request is picked; with none eligible the
credits stay. The mark is cleared first: what was noted before makes this one attempt, and what the attempt itself
notes makes the next (DESIGN CHOICE, log 31). -/
def State.pick (s : State) : State :=
  let s := { s with sched := { s.sched with pickDue := false } }
  if s.bidInFlight then s
  else
    match s.pickClass with
    | none => s
    | some (c, k) =>
      match s.firstOf (allPumps.filter (s.eligibleIn c)) with
      | none => s
      | some p => State.handPick p c { s with sched := { s.sched with credits := k } }

/-! ## Settling a step (log 6, log 31) -/

/-- The evaluation and pick events a step has made are taken, evaluation before picks, until none is left; the lines
are heeded before each. DESIGN CHOICE (log 31): the pick events noted between two picks are taken as one, so in ISOLATED
on a full table one request is tried and held, however many events the command made. -/
def State.settleLoop : Nat → State → State
  | 0, s => s
  | n + 1, s =>
    let s := s.heedAllLines
    if s.sched.evalDue then State.settleLoop n s.evaluate
    else if s.sched.pickDue then State.settleLoop n s.pick
    else s

/-- The end of a step: its events are taken and no mark is left. -/
def State.settle (s : State) : State :=
  let s := State.settleLoop Config.settleRounds s
  { s with sched := { s.sched with evalDue := false, pickDue := false } }

end Sys2Proof.Machine
end

