-- ==== Sys2Proof/Machine/ModeControl.lean ====
section
/-! DEFINITION. The station mode controller and the roster (chapter 7, 1.4): digest mismatch, isolation and return,
the entry into ACTIVE, silence and un-silencing, and the roster update every reception makes first. -/

namespace Sys2Proof.Machine

/-! ## Digest mismatch (7.7) -/

/-- A mismatching station (R160). -/
def State.mismatches (s : State) (a : Station) : Bool :=
  a ≠ s.own && !(s.rosterOf a).silent
    && (match (s.rosterOf a).digest with
        | some d => s.loader.digest ≠ some d
        | none => false)

/-- The lowest-addressed mismatching station (R161, R162). -/
def State.lowestMismatch (s : State) : Option Station := allStations.find? s.mismatches

/-- The mismatching peer written. -/
def State.setMismatch (a : Option Station) (s : State) : State := { s with ctl := { s.ctl with mismatch := a } }

/-- Start of a digest mismatch (R161): recorded, BIDDING and CONTENDING channels withdrawn to QUEUED, waiting VETOs
removed. The VETOs go first, so that the withdrawals' DROPs displace neither a ROLL nor an ANSWER (R139, log 25). -/
def State.startMismatch (a : Station) (s : State) : State :=
  let s := State.reportCondition (peerKey .digestMismatch a.addr) (s.setMismatch (some a))
  (s.cancel Telegram.isVeto).withdrawAll

/-- Hand-over to another mismatching peer (R162): the old record ends before the new one is reported (R169). -/
def State.handOverMismatch (old new : Station) (s : State) : State :=
  State.reportCondition (peerKey .digestMismatch new.addr)
    (State.reportEnd (peerKey .digestMismatch old.addr) (s.setMismatch (some new)))

/-- End of a digest mismatch (R162): judging, shedding and picking resume. -/
def State.endMismatch (old : Station) (s : State) : State :=
  State.notePick (State.shedIfOver (State.reportEnd (peerKey .digestMismatch old.addr) (s.setMismatch none)))

/-- The test of the condition when the set of mismatching stations may have changed (R160). -/
def State.testMismatch (s : State) : State :=
  match s.ctl.mismatch, s.lowestMismatch with
  | none, none => s
  | none, some a => s.startMismatch a
  | some a, some b => if a = b then s else s.handOverMismatch a b
  | some a, none => s.endMismatch a

/-! ## Modes (7.3, 7.4) -/

/-- The station mode written. -/
def State.setMode (m : StationMode) (s : State) : State := { s with ctl := { s.ctl with mode := m } }

/-- Entry into ISOLATED (R155). The waiting VETOs go first, so that the withdrawals' DROPs displace neither a ROLL nor an
ANSWER (R139, log 25). -/
def State.enterIsolated (s : State) : State :=
  let s := State.reportCondition (bareKey .isolated)
    { s with ctl := { s.ctl with mode := .isolated, listenTimer := none } }
  State.notePick (s.cancel Telegram.isVeto).withdrawAll

/-- Entry into LISTEN from ISOLATED (R157): a new listen begins and the start-up is not repeated. -/
def State.rejoin (s : State) : State :=
  State.reportEnd (bareKey .isolated)
    { s with ctl := { s.ctl with mode := .listen, listenTimer := some s.now, ackMark := false } }

/-- Entry into ACTIVE (R153): shedding is evaluated if over the cap, and a pick may be made. -/
def State.enterActive (s : State) : State :=
  State.notePick (State.shedIfOver { s with ctl := { s.ctl with mode := .active, listenTimer := none } })

/-! ## Roster (1.4) -/

/-- A roster record written. -/
def State.setRoster (a : Station) (r : RosterRecord) (s : State) : State :=
  { s with claims := { s.claims with roster := s.claims.roster.set a r } }

/-- The orphan mark of every entry of an owner written (R13, R14). -/
def State.markOrphans (o : Station) (orphan : Bool) (s : State) : State :=
  s.setEntries (s.claims.entries.map (fun e => if e.owner = o then { e with orphan := orphan } else e))

/-- Un-silencing (R14): the orphan marks go, PEER_SILENT ends, and the peer's digest counts again. The end of PEER_SILENT is
reported before a DIGEST_MISMATCH that the digest starts or hands over: the model's choice (log 7). -/
def State.unsilence (a : Station) (s : State) : State :=
  State.testMismatch (State.reportEnd (peerKey .peerSilent a.addr) (s.markOrphans a false))

/-- The roster update of a valid telegram from a pump-house station (R11, R14), made before the telegram acts. -/
def State.hearStation (a : Station) (s : State) : State :=
  let r := s.rosterOf a
  let t := s.setRoster a { r with heard := true, lastHeard := some s.now, silent := false }
  if r.silent then t.unsilence a else t

/-- The roster update by source address: service stations have no record (R11). -/
def State.hear (src : Addr) (s : State) : State :=
  match Addr.station? src with
  | some a => s.hearStation a
  | none => s

/-- Silence expiry of a peer (R13): PEER_SILENT, then the remote level, then the mismatch test (log 7). -/
def State.silence (a : Station) (s : State) : State :=
  let s := s.setRoster a { s.rosterOf a with silent := true }
  let s := State.reportCondition (peerKey .peerSilent a.addr) (s.markOrphans a true)
  (s.remoteSilent a).testMismatch

/-- The ROLL fields of a well-formed ROLL taken into the sender's record (R16). -/
def State.takeRollFields (a : Station) (b : RollBody) (s : State) : State :=
  s.setRoster a { s.rosterOf a with mode := some b.mode, hold := some b.hold, digest := some b.digest,
                                    suction := some b.suction, delivery := b.delivery }

/-- A well-formed ROLL (R16, R18, R118): the roster fields, the mismatch test, the remote level, and for a peer the
reconciliation. A ROLL under the own address is not reconciled (R18, log 10). -/
def State.onRoll (a : Station) (b : RollBody) (s : State) : State :=
  let s := ((s.takeRollFields a b).testMismatch).remoteLevel a b.suction
  if a = s.own then s else s.reconcile a b.claims

end Sys2Proof.Machine
end

