-- ==== Sys2Proof/Machine/Bus.lean ====
section
/-! DEFINITION. The bus interface at work (chapter 6) and the service responder (chapter 9): bodies built when a
telegram begins (R140 to R142, R186 to R189), self-reception (R126), acknowledge outcomes (R130), orders. -/

namespace Sys2Proof.Machine

/-! ## ROLL (R140, R141) -/

/-- The station mode as a ROLL states it; a station sends none in LOADING and HALTED (R146). -/
def StationMode.roll : StationMode → RollMode
  | .listen => .listen
  | .active => .active
  | .isolated => .isolated
  | .loading => .listen
  | .halted => .listen

/-- An output as a ROLL states it. -/
def levelOf : Option Nat → Level
  | some n => .cm n
  | none => .invalid

/-- The state a channel's claim is listed in; none where the channel is not listed (R141). -/
def Channel.listed (c : Channel) : Option ClaimState :=
  match c.state with
  | .contending => some .held
  | .starting => some .starting
  | .running => some .running
  | .stopping => some .running
  | .stopFailed => some .running
  | .tripped => some .running
  | .localRun => some .running
  | .disabled => none
  | .idle => none
  | .resting => none
  | .queued => none
  | .bidding => none
  | .localOff => none
  | .locked => none

/-- The descriptor a ROLL gives a channel (R141); TRIPPED without a claim descriptor is not listed. -/
def State.listing (s : State) (p : Pump) : Option Descriptor :=
  match (s.chan p).listed, (s.chan p).claim with
  | some st, some d => some ⟨p, s.img.main p, s.img.load p, d.cls, st, d.bid, d.manual, d.island⟩
  | _, _ => none

/-- The ROLL body built at this moment (R140). -/
def State.rollBody (s : State) : RollBody where
  mode := s.ctl.mode.roll
  hold := s.ctl.hold
  digest := s.loader.digest.getD 0#16
  suction := levelOf s.levels.a.output
  delivery := if s.img.localSource then some (levelOf s.levels.b.output) else none
  claims := allPumps.filterMap s.listing

/-! ## ANSWER contents (9.4, 11.3) -/

/-- Station mode code (11.2). A HALTED or LOADING station answers nothing (R179). -/
def StationMode.code : StationMode → Byte
  | .listen => 1#8
  | .active => 2#8
  | .isolated => 3#8
  | .loading => 0#8
  | .halted => 0#8

/-- Channel state code (11.2). -/
def ChanState.code : ChanState → Byte
  | .disabled => 0#8
  | .idle => 1#8
  | .resting => 2#8
  | .queued => 3#8
  | .bidding => 4#8
  | .contending => 5#8
  | .starting => 6#8
  | .running => 7#8
  | .stopping => 8#8
  | .stopFailed => 9#8
  | .tripped => 10#8
  | .localOff => 11#8
  | .localRun => 12#8
  | .locked => 13#8

/-- Fault kind code (11.2). -/
def FaultKind.code : FaultKind → Nat
  | .stopFail => 1
  | .overload => 2
  | .dryRun => 3
  | .levelSensor => 4
  | .remoteLevelStale => 5
  | .peerSilent => 6
  | .digestMismatch => 7
  | .tableFull => 8
  | .overBudget => 9
  | .isolated => 10
  | .configImage => 11
  | .startFail => 12
  | .lateVeto => 13
  | .divergence => 14
  | .checkErrors => 15
  | .siteCode => 16
  | .membership => 17

/-- A number as two bytes, most significant first. -/
def nat16 (n : Nat) : List Byte := bytes16 (BitVec.ofNat 16 n)

/-- A number as four bytes, most significant first. -/
def nat32 (n : Nat) : List Byte := nat16 (n / 65536) ++ nat16 n

/-- STATION content (R187). -/
def State.stationContent (s : State) : List Byte :=
  [s.ctl.mode.code,
    flagsByte s.ctl.hold s.ctl.mismatch.isSome s.faults.overflow s.faults.pending s.levels.lockout
      s.delivery.isNone]
    ++ nat16 s.countedLoad ++ [byte s.claims.entries.length]

/-- A CLAIMS entry of 8 bytes (11.3). -/
def Entry.bytes (e : Entry) : List Byte :=
  [byte e.owner.val, byte e.pump.val, byte e.main.val, byte e.load, byte e.cls.val, e.state.code, e.bid,
    flagsByte e.manual e.island e.orphan false false false]

/-- The end mark of a paged topic (11.3). -/
def endMark : Byte := 255#8

/-- The entries of a CLAIMS page (R188). -/
def State.claimsOnPage (s : State) (index : Byte) : List Entry :=
  (s.claims.entries.drop index.toNat).take Config.claimsPage

/-- CLAIMS content (R188): total, next index or end mark, the page. -/
def State.claimsContent (s : State) (index : Byte) : List Byte :=
  let page := s.claimsOnPage index
  byte s.claims.entries.length
    :: (if index.toNat + page.length < s.claims.entries.length then byte (index.toNat + page.length) else endMark)
    :: (page.map Entry.bytes).flatten

/-- A CHANNELS record of 8 bytes (11.3), bit 0 of its flags the least significant (log 30). -/
def State.channelBytes (s : State) (p : Pump) : List Byte :=
  let c := s.chan p
  [c.state.code,
    byte (c.serviceBlock.toNat + 2 * c.lastStart.isSome.toNat
      + 16 * (match s.request p with
              | some r => r.cls.val
              | none => 7))]
    ++ nat32 c.totalSeconds ++ nat16 (c.lastStart.getD 0)

/-- CHANNELS content (R187). -/
def State.channelsContent (s : State) : List Byte := (allPumps.map s.channelBytes).flatten

/-- A FAULTS record of 6 bytes (11.3), bit 0 of its first byte the least significant (log 30). -/
def FaultRecord.bytes (r : FaultRecord) : List Byte :=
  [byte (r.key.kind.code + 64 * r.standing.toNat + 128 * r.acked.toNat),
    byte (16 * (match r.key.pump with
                | some p => p.val
                | none => 15)
      + (match r.key.main with
         | some m => m.val
         | none => 15)),
    (match r.key.peer with
     | some a => byte a.val
     | none => 255#8)]
    ++ nat16 r.firstTime ++ [byte r.repeatCount]

/-- FAULTS content (R187). -/
def State.faultsContent (s : State) : List Byte :=
  byte s.faults.records.length :: (s.faults.records.map FaultRecord.bytes).flatten

/-- COUNTERS content in the order of R190. -/
def Counters.bytes (c : Counters) : List Byte :=
  nat16 c.carried ++ nat16 c.receivedValid ++ nat16 c.checkFailures ++ nat16 c.arbitrationLosses
    ++ nat16 c.unacked ++ nat16 c.displaced ++ nat16 c.bidsSent ++ nat16 c.bidsVetoed ++ nat16 c.commits
    ++ nat16 c.startFailures ++ nat16 c.sheds

/-- Hold of a ROSTER record: 0 absent, 1 no, 2 yes. -/
def holdCode : Option Bool → Nat
  | none => 0
  | some false => 1
  | some true => 2

/-- Mode of a ROSTER record: 0 absent. -/
def modeCode : Option RollMode → Nat
  | none => 0
  | some m => m.code.toNat

/-- Level of a ROSTER record: 2046 invalid, 2047 absent. -/
def levelCode : Option Level → Nat
  | some (.cm n) => n
  | some .invalid => 2046
  | none => 2047

/-- Last-heard time of a ROSTER record in s, saturating at 65534; 65535 absent. -/
def lastHeardCode : Option Nat → Nat
  | some t => min (t / 1000) 65534
  | none => 65535

/-- The 64 bits of a ROSTER record, packed in the order of 11.3. -/
def RosterRecord.bits (a : Station) (r : RosterRecord) : BitVec 64 :=
  BitVec.ofNat 4 a.val ++ BitVec.ofBool r.heard ++ BitVec.ofBool r.silent ++ BitVec.ofNat 2 (holdCode r.hold)
    ++ BitVec.ofNat 2 (modeCode r.mode) ++ BitVec.ofNat 11 (levelCode r.suction)
    ++ BitVec.ofNat 11 (levelCode r.delivery) ++ r.digest.getD 0#16 ++ BitVec.ofNat 16 (lastHeardCode r.lastHeard)

/-- 64 bits as eight bytes, most significant first. -/
def bytes64 (w : BitVec 64) : List Byte :=
  [w.extractLsb' 56 8, w.extractLsb' 48 8, w.extractLsb' 40 8, w.extractLsb' 32 8, w.extractLsb' 24 8,
    w.extractLsb' 16 8, w.extractLsb' 8 8, w.extractLsb' 0 8]

/-- ROSTER content (R189). -/
def State.rosterContent (s : State) (index : Byte) : List Byte :=
  (if index.toNat + Config.rosterPage ≤ 13 then byte (index.toNat + Config.rosterPage) else endMark)
    :: (((allStations.drop index.toNat).take Config.rosterPage).map
          (fun a => bytes64 ((s.rosterOf a).bits a))).flatten

/-- The content of a topic at this moment (R186 to R189). -/
def State.content (s : State) (topic : Topic) (index : Byte) : List Byte :=
  match topic with
  | .station => s.stationContent
  | .claims => s.claimsContent index
  | .channels => s.channelsContent
  | .faults => s.faultsContent
  | .counters => s.resp.counters.bytes
  | .roster => s.rosterContent index

/-- The ANSWER body built from the slot at this moment (R142, R186). -/
def State.answerBody (s : State) (a : Ask) : AnswerBody := ⟨a.asker, a.topic, a.index, s.content a.topic a.index⟩

/-! ## Arbitration (6.3) -/

/-- A waiting telegram with its body built; an ANSWER is built from the slot, which is full while one waits (R185,
log 15). -/
def State.build (s : State) (t : Telegram) : Option Sent :=
  match t with
  | .veto v => some (.veto v)
  | .drop d => some (.drop d)
  | .run r => some (.run r)
  | .commit c => some (.commit c)
  | .bid c => some (.bid c)
  | .answer => s.resp.slot.map (fun a => .answer (s.answerBody a))
  | .roll => some (.roll s.rollBody)

/-- What the station offers at a bus idle: the head of its queue (R131), if no own telegram is on the bus or in its
acknowledge slot. -/
def State.offer (s : State) : Option Sent :=
  if s.bus.onBus.isSome || s.bus.slotOpen then none
  else
    match s.bus.queue with
    | t :: _ => s.build t
    | [] => none

/-- The offered telegram begins on the bus (R125, R140); an ANSWER empties the slot (R142). -/
def State.begin (t : Sent) (s : State) : State :=
  let s := { s with bus := { s.bus with queue := s.bus.queue.drop 1, onBus := some t } }
  match t with
  | .answer _ => s.clearSlot
  | .veto _ => s
  | .drop _ => s
  | .run _ => s
  | .commit _ => s
  | .bid _ => s
  | .roll _ => s

/-- A bus idle (R131): the own telegram begins unless another station's is lower; then a loss is counted. -/
def State.arbitrate (others : List (List Byte)) (s : State) : State :=
  match s.offer with
  | none => s
  | some t =>
    if others.any (fun o => bytesBelow o (t.bytes s.loader.address)) then
      s.count (fun c => { c with arbitrationLosses := bump c.arbitrationLosses })
    else s.begin t

/-! ## Self-reception (R126) -/

/-- The bidder on its own BID (R33). `verdict` is its own judgement, made on the table before the BID. -/
def State.ownBid (c : ClaimFields) (verdict : Option RefusalReason) (s : State) : State :=
  if s.bidsUnder c.pump c.bid then
    match verdict with
    | none => State.enter c.pump .contending (s.modChan c.pump (fun x => { x with contest := some s.now }))
    | some _ => State.count (fun k => { k with bidsVetoed := bump k.bidsVetoed }) (s.toQueuedHeld c.pump)
  else s

/-- The own judgement of an own BID; a learning station refuses none (R32, R33). -/
def State.verdict (s : State) (c : ClaimFields) : Option RefusalReason :=
  if s.judging then s.judge s.own c else none

/-- The bidder on its own COMMIT (R41). -/
def State.ownCommit (c : ClaimFields) (s : State) : State :=
  if s.contendsUnder c.pump c.bid then
    State.enterStarting c.pump (s.count (fun k => { k with commits := bump k.commits }))
  else s

/-- What a self-received telegram does beyond the roster update: it acts as at every receiver, and on the channel
that sent it (R26, R33, R41, R43, R78). -/
def State.selfReceive (t : Sent) (s : State) : State :=
  match t with
  | .bid c => (s.onBid s.own c).ownBid c (s.verdict c)
  | .veto v => s.onVeto s.loader.address v
  | .commit c => (s.onCommit s.own c).ownCommit c
  | .run r => (s.onRun s.own r).handReturn r.pump
  | .drop d => s.onDrop s.own d
  | .roll b => s.onRoll s.own b
  | .answer _ => s

/-- Held telegrams enter the queue like any new telegram (R134). -/
def State.enterHeld (s : State) : State :=
  s.bus.held.foldl (fun s t => s.handIn t) { s with bus := { s.bus with held := [] } }

/-- Counted at the carriage: the telegram, and a BID among the bids sent, whatever its outcome (R190). That this holds of a
BID its withdrawn channel no longer acts on too, which R190's list under the table denies, is the model's reading
(log 29). -/
def State.countCarried (t : Sent) (s : State) : State :=
  s.count (fun c => { c with carried := bump c.carried,
                             bidsSent := match t with
                                         | .bid _ => bump c.bidsSent
                                         | _ => c.bidsSent })

/-- The carriage of an own telegram (R126): it leaves the queue, is counted, is self-received, and the held telegrams
enter. The sender does not signal in the slot that follows (R129). -/
def State.carry (t : Sent) (s : State) : State :=
  let s := State.countCarried t
    { s with bus := { s.bus with onBus := none, slotOpen := true, ackSignal := false } }
  let s := State.settle (State.selfReceive t (s.hear s.loader.address))
  State.settle s.enterHeld

/-! ## Acknowledge outcomes (R130) -/

/-- "acknowledged" at the station mode controller (R152, R154, R157). -/
def State.acknowledged (s : State) : State :=
  match s.ctl.mode with
  | .listen => { s with ctl := { s.ctl with ackMark := true } }
  | .isolated => s.rejoin
  | .active => s
  | .loading => s
  | .halted => s

/-- "three unacknowledged" at the station mode controller (R152, R154, R156). -/
def State.threeUnacknowledged (s : State) : State :=
  match s.ctl.mode with
  | .active => s.enterIsolated
  | .listen => s
  | .isolated => s
  | .loading => s
  | .halted => s

/-- The consecutive count written. -/
def State.setUnacked (n : Nat) (s : State) : State := { s with bus := { s.bus with unacked := n } }

/-- The end of the slot after an own telegram (R130). -/
def State.slotEnd (acknowledged : Bool) (s : State) : State :=
  let s := { s with bus := { s.bus with slotOpen := false } }
  if acknowledged then (s.setUnacked 0).acknowledged
  else
    let s := s.count (fun c => { c with unacked := bump c.unacked })
    let s := s.setUnacked (min (s.bus.unacked + 1) Config.unackedLimit)
    if s.bus.unacked = Config.unackedLimit then s.threeUnacknowledged else s

/-! ## Receptions (R127) -/

/-- What every valid telegram of another station does before it is handed on: it is counted, acknowledged in the
slot, and updates the roster (R11, R127, R129). -/
def State.accept (src : Addr) (s : State) : State :=
  State.hear src (State.count (fun c => { c with receivedValid := bump c.receivedValid })
    { s with bus := { s.bus with ackSignal := true } })

/-- The reception of a valid telegram: nothing while the receiver is off (R125). -/
def State.receive (src : Addr) (act : State → State) (s : State) : State :=
  if s.receiverOn then State.settle (act (s.accept src)) else s

/-- A claim telegram: from a pump-house station and well formed it acts, else it is ignored (R26). -/
def onClaim {α : Type} (src : Addr) (fields : Option α) (act : Station → α → State → State) (s : State) : State :=
  match Addr.station? src, fields with
  | some o, some f => act o f s
  | _, _ => s

/-! ## Service telegrams (9.1) -/

/-- The target is this station or all (R179). -/
def State.addressed (s : State) (t : Target) : Bool :=
  match t with
  | .all => true
  | .one a => a.addr = s.loader.address

/-- The site-code test of an order addressed to the station (R179, R180). -/
def State.siteChecked (src : Addr) (code : BitVec 16) (act : State → State) (s : State) : State :=
  if code = s.img.siteCode then act s else s.reportEvent (peerKey .siteCode src)

/-- HOLD, FREE and CLEAR: the three tests of R179, then the order. -/
def onOrder (src : Addr) (fields : Option (OrderFields Target)) (act : State → State) (s : State) : State :=
  match fields with
  | some f => if s.addressed f.target then s.siteChecked src f.siteCode act else s
  | none => s

/-- An obeyed HOLD (R181). -/
def State.obeyHold (s : State) : State := { s with ctl := { s.ctl with hold := true } }

/-- A service block cleared; on a channel in IDLE an evaluation event (R80, R90). -/
def State.unblock (p : Pump) (s : State) : State :=
  if s.inUse p && (s.chan p).serviceBlock then
    let s := s.modChan p (fun c => { c with serviceBlock := false })
    if (s.chan p).state = .idle then s.noteEval else s
  else s

/-- An obeyed FREE (R159, R181): the clearing of the hold flag is a pick event. -/
def State.obeyFree (s : State) : State :=
  let s := if s.ctl.hold then State.notePick { s with ctl := { s.ctl with hold := false } } else s
  allPumps.foldl (fun s p => s.unblock p) s

/-- An obeyed SHED (R80, R182). -/
def State.obeyShed (p : Pump) (s : State) : State :=
  if s.inUse p then
    let s := s.modChan p (fun c => { c with serviceBlock := true })
    match (s.chan p).state with
    | .starting => s.shedStop p
    | .running => s.shedStop p
    | .queued => (s.loseRequest p).enter p .idle
    | .bidding => (s.loseRequest p).enter p .idle
    | .contending => (s.loseRequest p).enter p .idle
    | _ => s
  else s

/-- The trip acknowledgement mark set in TRIPPED (R74). -/
def Channel.acknowledge (c : Channel) : Channel := if c.state = .tripped then { c with tripAck := true } else c

/-- An acknowledgement, by ACK or CLEAR (R170 to R172): the file first, then the channels. -/
def State.acknowledge (s : State) : State :=
  let s := s.changeFile FaultFile.acknowledge
  { s with pumps := { s.pumps with chan := mapSix Channel.acknowledge s.pumps.chan } }

/-- A well-formed, addressed ASK (R185): the slot is set; an ANSWER is handed in unless one waits. -/
def State.obeyAsk (src : Addr) (f : AskFields) (s : State) : State :=
  let waiting := s.bus.waits (· = .answer)
  let s := { s with resp := { s.resp with slot := some ⟨f.topic, f.index, src⟩ } }
  if waiting then s else s.handIn .answer

end Sys2Proof.Machine
end

