-- ==== Sys2Proof/Machine/Startup.lean ====
section
/-! DEFINITION. Family: start-up (7.2, chapter 10). RESET and IMAGE_READ_COMPLETE, with the entry into LISTEN and the
found-running check. -/

namespace Sys2Proof.Machine

/-- What a command answers. -/
abbrev Answer := Host.Outcome State Fault Refusal

/-- RESET (R145, R147, R192): every block to its reset values, the straps latched. The field lines stay as they are,
and the commands that wait (log 3). -/
def execReset (address : Addr) (polarityHigh : Bool) (s : State) : Answer :=
  .next (.afterReset s.field address polarityHigh s.pending)

/-! ## Found-running check (R83) -/

/-- The found-running entry of a pump (R83). -/
def State.foundFields (s : State) (p : Pump) : EntryFields :=
  ⟨s.img.main p, s.img.load p, 2, .running, s.pumps.bidNumber, false, false⟩

/-- A found-running claim (R83): the entry, the same descriptor, then STOPPING. -/
def State.foundRunning (p : Pump) (s : State) : State :=
  let s := s.insertClaim s.own p (s.foundFields p)
  State.stop p .stopped
    (s.modChan p (fun c => { c with claim := some ⟨2, s.pumps.bidNumber, false, false⟩ }))

/-- The check at one channel in use: an asserted OVERLOAD counts as asserted at that moment (R73, R83); then the
first state by FEEDBACK and AUTO. -/
def State.foundCheck (p : Pump) (s : State) : State :=
  if s.inUse p then
    let s := if s.overload p then s.reportCondition (s.pumpKey .overload p) else s
    if s.feedback p then
      if s.auto p then s.foundRunning p else s.enterLocalRun p
    else s.available p
  else s

/-- The check of every channel in use, the change of the table handed on at its end. The channels are checked in
ascending pump order, which R151 and R83 leave open: the model's choice (log 23). -/
def State.foundChecks (s : State) : State := s.onTable (fun s => allPumps.foldl (fun s p => s.foundCheck p) s)

/-! ## Leaving LOADING (R148, R149, R151) -/

/-- The timers that start at the entry into LISTEN from LOADING (R107, R123, R143, R151, R152), the first check-error
window, the alarm mode in use (R174). -/
def State.startTimers (s : State) : State :=
  { s with
    ctl := { s.ctl with mode := .listen, listenTimer := some s.now, ackMark := false }
    bus := { s.bus with rollTimer := some s.now, window := 0 }
    levels := { s.levels with
      a := { s.levels.a with sampleTimer := some s.now }
      b := { s.levels.b with sampleTimer := if s.img.localSource then some s.now else none }
      allowance := some s.now }
    alarm := { s.alarm with mode := s.img.alarm } }

/-- Entry into LISTEN from LOADING (R151): the first evaluation is made by the channels that enter IDLE (R106). The alarm
mode is in use before the found-running check reports OVERLOAD: the model's choice (log 26). -/
def State.enterListen (s : State) : State := State.settle (State.foundChecks (State.handInRoll s.startTimers))

/-- Entry into HALTED (R149). -/
def State.enterHalted (s : State) : State := State.reportCondition (bareKey .configImage) (s.setMode .halted)

/-- The image and its digest taken (R193, R196, R201). -/
def State.loadImage (bytes : List Byte) (s : State) : State :=
  { s with loader := { s.loader with image := some (parseImage bytes), digest := some (imageDigest bytes) } }

/-- IMAGE_READ_COMPLETE (R148): LISTEN with a valid image and an address of 0–13, HALTED otherwise. No image read is
in progress outside LOADING (log 2). -/
def execImageReadComplete (bytes : List Byte) (s : State) : Answer :=
  .next
    (if s.ctl.mode = .loading then
      if imageValid bytes s.loader.address && decide (s.loader.address.val < 14) then
        (s.loadImage bytes).enterListen
      else (s.loadImage bytes).enterHalted
    else s)

end Sys2Proof.Machine
end

