-- ==== Sys2Proof/Machine/BusEvents.lean ====
section
/-! DEFINITION. Family: bus events (chapter 6). The bus idle, the carriage of an own telegram, the end of its
acknowledge slot, a failed check. -/

namespace Sys2Proof.Machine

/-- BUS_IDLE_ARBITRATION (R131). -/
def execBusIdleArbitration (others : List (List Byte)) (s : State) : Answer := .next (s.arbitrate others)

/-- TELEGRAM_CARRIED (R126): nothing is carried while no own telegram is on the bus (log 2). -/
def execTelegramCarried (s : State) : Answer :=
  .next
    (match s.bus.onBus with
     | some t => s.carry t
     | none => s)

/-- ACKNOWLEDGE_SLOT_END (R130): only the slot of an own telegram concerns this station (log 2). -/
def execAcknowledgeSlotEnd (acknowledged : Bool) (s : State) : Answer :=
  .next (if s.bus.slotOpen then State.settle (s.slotEnd acknowledged) else s)

/-- The check-error window takes a failure; the sixteenth is reported (R128). -/
def State.countWindow (s : State) : State :=
  if s.bus.window < Config.checkErrorLimit then
    let s := { s with bus := { s.bus with window := s.bus.window + 1 } }
    if s.bus.window = Config.checkErrorLimit then s.reportEvent (bareKey .checkErrors) else s
  else s

/-- CHECK_FAILED (R127, R128): discarded, not acknowledged, counted twice. -/
def execCheckFailed (s : State) : Answer :=
  .next
    (if s.receiverOn then
      State.countWindow (State.count (fun c => { c with checkFailures := bump c.checkFailures })
        { s with bus := { s.bus with ackSignal := false } })
    else s)

end Sys2Proof.Machine
end

