-- ==== Sys2Proof/Machine/Receptions.lean ====
section
/-! DEFINITION. Family: receptions. The valid telegrams of other stations, kind by kind (R127). Each is taken apart
by Decode; one that is not well formed is counted, acknowledged and heard, and then ignored (R21, R26, R179). -/

namespace Sys2Proof.Machine

/-- BID_RECEIVED (R27, R28). -/
def execBidReceived (src : Addr) (body : List Byte) (s : State) : Answer :=
  .next (s.receive src (onClaim src (decodeClaim body) State.onBid))

/-- VETO_RECEIVED (R35). -/
def execVetoReceived (src : Addr) (body : List Byte) (s : State) : Answer :=
  .next (s.receive src (onClaim src (decodeVeto body) (fun _ => State.onVeto src)))

/-- COMMIT_RECEIVED (R40). -/
def execCommitReceived (src : Addr) (body : List Byte) (s : State) : Answer :=
  .next (s.receive src (onClaim src (decodeClaim body) State.onCommit))

/-- RUN_RECEIVED (R42). -/
def execRunReceived (src : Addr) (body : List Byte) (s : State) : Answer :=
  .next (s.receive src (onClaim src (decodeRun body) State.onRun))

/-- DROP_RECEIVED (R44). -/
def execDropReceived (src : Addr) (body : List Byte) (s : State) : Answer :=
  .next (s.receive src (onClaim src (decodeDrop body) State.onDrop))

/-- ROLL_RECEIVED (R16, R18). -/
def execRollReceived (src : Addr) (body : List Byte) (s : State) : Answer :=
  .next (s.receive src (onClaim src (decodeRoll body) State.onRoll))

/-- ASK_RECEIVED (R179, R185). -/
def execAskReceived (src : Addr) (body : List Byte) (s : State) : Answer :=
  .next (s.receive src (fun s =>
    match decodeAsk body with
    | some f => if s.addressed f.target then s.obeyAsk src f else s
    | none => s))

/-- HOLD_RECEIVED (R181). -/
def execHoldReceived (src : Addr) (body : List Byte) (s : State) : Answer :=
  .next (s.receive src (onOrder src (decodeOrder body) State.obeyHold))

/-- FREE_RECEIVED (R181). -/
def execFreeReceived (src : Addr) (body : List Byte) (s : State) : Answer :=
  .next (s.receive src (onOrder src (decodeOrder body) State.obeyFree))

/-- SHED_RECEIVED (R182). -/
def execShedReceived (src : Addr) (body : List Byte) (s : State) : Answer :=
  .next (s.receive src (fun s =>
    match decodeShed body with
    | some f => if s.addressed f.target.1 then s.siteChecked src f.siteCode (State.obeyShed f.target.2) else s
    | none => s))

/-- CLEAR_RECEIVED (R183). -/
def execClearReceived (src : Addr) (body : List Byte) (s : State) : Answer :=
  .next (s.receive src (onOrder src (decodeOrder body) State.acknowledge))

/-- PURGE_RECEIVED (R184): addressed to every station. -/
def execPurgeReceived (src : Addr) (body : List Byte) (s : State) : Answer :=
  .next (s.receive src (fun s =>
    match decodePurge body with
    | some f => s.siteChecked src f.siteCode (State.purge f.target)
    | none => s))

/-- ANSWER_RECEIVED (R127): handed to no block, and not decoded (R200). -/
def execAnswerReceived (src : Addr) (_body : List Byte) (s : State) : Answer := .next (s.receive src id)

/-- UNKNOWN_KIND_RECEIVED (R127): handed to no block. -/
def execUnknownKindReceived (_priority : BitVec 4) (_variant : Byte) (src : Addr) (_body : List Byte)
    (s : State) : Answer := .next (s.receive src id)

end Sys2Proof.Machine
end

