-- ==== Sys2Proof/Machine/Timers.lean ====
section
/-! DEFINITION. Family: timers. The expiries of the station's own timers and the moments it measures. An expiry acts
while its timer runs; the time still missing passes first (log 2). -/

namespace Sys2Proof.Machine

/-- An expiry of a timer of this length: the moment of expiry is reached and the effect follows; a timer that is
stopped does not expire (log 2). -/
def State.expire (timer : Timer) (length : Nat) (act : State → State) (s : State) : State :=
  match timer with
  | some t => act (s.reach (t + length))
  | none => s

/-- ROLL_TIMER_EXPIRY (R143): a ROLL is handed in and the check-error window restarts (R128). -/
def execRollTimerExpiry (s : State) : Answer :=
  .next (s.expire s.bus.rollTimer s.img.rollTime (fun s =>
    State.settle (State.handInRoll { s with bus := { s.bus with rollTimer := some s.now, window := 0 } })))

/-- The end of the listen (R152). -/
def State.endListen (s : State) : State := if s.ctl.ackMark then s.enterActive else s.enterIsolated

/-- LISTEN_TIMER_EXPIRY (R152). -/
def execListenTimerExpiry (s : State) : Answer :=
  .next (if s.ctl.mode = .listen then
      s.expire s.ctl.listenTimer s.silenceLimit (fun s => s.endListen.settle)
    else s)

/-- SILENCE_EXPIRY (R13): measured for a peer that is heard and not silent. -/
def execSilenceExpiry (peer : Station) (s : State) : Answer :=
  .next (if s.receiverOn && peer ≠ s.own && (s.rosterOf peer).heard && !(s.rosterOf peer).silent then
      s.expire (s.rosterOf peer).lastHeard s.silenceLimit (fun s => (s.silence peer).settle)
    else s)

/-- The COMMIT of a contest: the fields of the own HELD entry for the bid (R38). They are the pump record's main and
load and the descriptor's class and number (R60, R30), which stand in where another station of the same address has
taken the entry away (log 15). -/
def State.commitOf (s : State) (p : Pump) : Option ClaimFields :=
  match (s.chan p).claim, s.entry s.own p with
  | some d, some e =>
    if e.bid = d.bid && e.state = .held then some ⟨p, e.main, e.load, e.cls, e.bid⟩
    else some ⟨p, s.img.main p, s.img.load p, d.cls, d.bid⟩
  | some d, none => some ⟨p, s.img.main p, s.img.load p, d.cls, d.bid⟩
  | none, _ => none

/-- The end of the contest window (R38): the COMMIT is queued, and the channel stays CONTENDING until it is carried. -/
def State.endWindow (p : Pump) (s : State) : State :=
  let s := s.modChan p (fun c => { c with contest := none })
  match s.commitOf p with
  | some c => s.handIn (.commit c)
  | none => s

/-- CONTEST_TIMER_EXPIRY (R38). -/
def execContestTimerExpiry (p : Pump) (s : State) : Answer :=
  .next (if (s.chan p).state = .contending then
      s.expire (s.chan p).contest s.img.contestWindow (fun s => (s.endWindow p).settle)
    else s)

/-- A failed start (R64). -/
def State.failStart (p : Pump) (s : State) : State :=
  let s := s.modChan p (fun c => { c with startConfirm := none, tripAck := false })
  let s := (s.enter p .tripped).dropClaim p .startFail
  State.count (fun c => { c with startFailures := bump c.startFailures }) (s.reportEvent (s.pumpKey .startFail p))

/-- START_CONFIRM_EXPIRY (R64): in STARTING with FEEDBACK released. -/
def execStartConfirmExpiry (p : Pump) (s : State) : Answer :=
  .next (if (s.chan p).state = .starting && !s.feedback p then
      s.expire (s.chan p).startConfirm ((s.img.pumps[p]).startConfirm * 1000) (fun s => (s.failStart p).settle)
    else s)

/-- A failed stop (R70). -/
def State.failStop (p : Pump) (s : State) : State :=
  let s := s.modChan p (fun c => { c with stopConfirm := none, stopFail := true })
  State.reportCondition (s.pumpKey .stopFail p) (s.enter p .stopFailed)

/-- STOP_CONFIRM_EXPIRY (R70): in STOPPING with FEEDBACK still asserted. -/
def execStopConfirmExpiry (p : Pump) (s : State) : Answer :=
  .next (if (s.chan p).state = .stopping && s.feedback p then
      s.expire (s.chan p).stopConfirm ((s.img.pumps[p]).stopConfirm * 1000) (fun s => (s.failStop p).settle)
    else s)

/-- REST_EXPIRY (R72): the channel takes the available state. -/
def execRestExpiry (p : Pump) (s : State) : Answer :=
  .next (if (s.chan p).state = .resting then
      s.expire (s.chan p).rest ((s.img.pumps[p]).minRest * 1000) (fun s =>
        ((s.modChan p (fun c => { c with rest := none })).available p).settle)
    else s)

/-- MINIMUM_RUN_MET (R65, R67): the run time still missing passes first (log 2); then the stop test. -/
def execMinimumRunMet (p : Pump) (s : State) : Answer :=
  .next (if (s.chan p).state = .running then
      match (s.chan p).currentRun with
      | some t => ((s.advance ((s.img.pumps[p]).minRun * 1000 - t)).testStop p).settle
      | none => s
    else s)

/-- The retry hold of a request cleared, a pick event (R95, R100). -/
def State.clearHold (p : Pump) (s : State) : State :=
  State.notePick (s.setRequest p ((s.request p).map (fun r => { r with hold := none })))

/-- RETRY_HOLD_EXPIRY (R95): one roll period after the hold was set. -/
def execRetryHoldExpiry (p : Pump) (s : State) : Answer :=
  .next
    (match s.request p with
     | some r => s.expire r.hold s.img.rollTime (fun s => (s.clearHold p).settle)
     | none => s)

/-- GUARD_INTERVAL_PASSED (R97): a pick event. -/
def execGuardIntervalPassed (m : Main) (s : State) : Answer :=
  .next (s.expire s.claims.settle[m] ((s.img.guard[m]) * 1000) (fun s => s.notePick.settle))

/-- SAMPLE_TIMER_EXPIRY (R107): of a sampled input, with the sample it takes. -/
def execSampleTimerExpiry (i : LevelInput) (x : BitVec 12) (s : State) : Answer :=
  .next (s.expire (s.input i).sampleTimer Config.samplePeriod (fun s => (s.takeSample i x).settle))

/-- HOLD_OVER_EXPIRY (R113). -/
def execHoldOverExpiry (s : State) : Answer :=
  .next (s.expire s.levels.holdOver Config.holdOverTime (fun s => s.endFreeze.settle))

/-- BLIND_RUN_LIMIT_REACHED (R120): once per stale onset. -/
def execBlindRunLimitReached (s : State) : Answer :=
  .next (if s.levels.blindReached then s
    else s.expire s.levels.blindTimer (s.img.blindLimit * 1000) (fun s => s.reachBlindLimit.settle))

/-- The end of the start-up allowance (R123): what still stands from reset is taken as an entry or an onset, the lockout
before the staleness (log 7). -/
def State.endAllowance (s : State) : State :=
  let s := { s with levels := { s.levels with allowance := none } }
  let s := if s.levels.lockoutUnrecorded then s.enterLockout else s
  if s.levels.staleUnrecorded then s.staleOnset else s

/-- START_UP_ALLOWANCE_EXPIRY (R123). -/
def execStartUpAllowanceExpiry (s : State) : Answer :=
  .next (s.expire s.levels.allowance s.silenceLimit (fun s => s.endAllowance.settle))

/-- PULSE_TIMER_EXPIRY (R176): the line is released. -/
def execPulseTimerExpiry (s : State) : Answer :=
  .next (s.expire s.alarm.pulseTimer Config.pulseTime (fun s =>
    { s with alarm := { s.alarm with driven := false, pulseTimer := none } }))

end Sys2Proof.Machine
end

