-- ==== Sys2Proof/Machine/Lines.lean ====
section
/-! DEFINITION. Family: field lines. FEEDBACK, OVERLOAD and AUTO of a pump, gang stop, fire demand, off-peak, ACK and
MUTE. A line keeps its level in every mode; the channels and the scheduler read it once the station has left LOADING
for LISTEN (R56, R147). A command that names the level a line has already is no change (log 3). -/

namespace Sys2Proof.Machine

/-- The lines of a pump written. -/
def State.setLines (p : Pump) (l : PumpLines) (s : State) : State :=
  { s with field := { s.field with pump := s.field.pump.set p l } }

/-- What a channel in use does, and the settling of the step. -/
def State.atChannel (p : Pump) (act : State → State) (s : State) : State :=
  if s.inUse p then (act s).settle else s

/-! ## FEEDBACK -/

/-- A rise at the channel (R63, R77). The rise in IDLE, RESTING, QUEUED, LOCAL and LOCKED, and after a withdrawal, is
heeded as R77's presence of FEEDBACK. In TRIPPED with the claim gone R77 speaks of a channel whose DROP was a TRIP; that one
tripped by a failed start, whose DROP was a START_FAIL (R64), takes the manual claim too is the model's choice
(log 28). -/
def State.feedbackRise (p : Pump) (s : State) : State :=
  match (s.chan p).state with
  | .starting => s.confirmStart p
  | .bidding => (s.withdraw p).enterLocalRun p
  | .contending => (s.withdraw p).enterLocalRun p
  | .idle => s.enterLocalRun p
  | .resting => s.enterLocalRun p
  | .queued => s.enterLocalRun p
  | .localOff => s.enterLocalRun p
  | .locked => s.enterLocalRun p
  | .tripped =>
    if (s.chan p).claim.isNone then
      State.queueRun p (s.modChan p (fun c => { c with claim := some s.handClaim }))
    else s
  | .running => s
  | .stopping => s
  | .stopFailed => s
  | .localRun => s
  | .disabled => s

/-- FEEDBACK_RISES (R63). -/
def execFeedbackRises (p : Pump) (s : State) : Answer :=
  .next (if s.feedback p then s
    else State.atChannel p (State.feedbackRise p) (s.setLines p { s.field.pump[p] with feedback := true }))

/-- The stop-failure mark cleared and its condition ended, where it is set (R71, R73). -/
def State.endStopFail (p : Pump) (s : State) : State :=
  if (s.chan p).stopFail then
    State.reportEnd (s.pumpKey .stopFail p) (s.modChan p (fun c => { c with stopFail := false }))
  else s

/-- A fall at the channel (R69, R70, R71, R73, R78). -/
def State.feedbackFall (p : Pump) (s : State) : State :=
  match (s.chan p).state with
  | .running =>
    State.enterResting p ((s.dropClaim p .stopped).modChan p (fun c => { c with currentRun := none }))
  | .stopping => s.confirmStop p
  | .stopFailed =>
    State.enterResting p
      (((s.dropClaim p .stopped).modChan p (fun c => { c with stopReason := none })).endStopFail p)
  | .tripped =>
    let s := if (s.chan p).claim.isSome then s.dropClaim p .trip else s
    s.endStopFail p
  | .localRun => (s.dropClaim p .localEnd).available p
  | .disabled => s
  | .idle => s
  | .resting => s
  | .queued => s
  | .bidding => s
  | .contending => s
  | .starting => s
  | .localOff => s
  | .locked => s

/-- FEEDBACK_FALLS (R70). -/
def execFeedbackFalls (p : Pump) (s : State) : Answer :=
  .next (if s.feedback p then
      State.atChannel p (State.feedbackFall p) (s.setLines p { s.field.pump[p] with feedback := false })
    else s)

/-! ## OVERLOAD -/

/-- OVERLOAD_ASSERTED (R73): recorded in every state; the trip is heeded with the lines at the settling. -/
def execOverloadAsserted (p : Pump) (s : State) : Answer :=
  .next (if s.overload p then s
    else State.atChannel p (fun s => s.reportCondition (s.pumpKey .overload p))
      (s.setLines p { s.field.pump[p] with overload := true }))

/-- OVERLOAD_RELEASED (R73): the condition ends; a TRIPPED channel's release is heeded at the settling (R75). -/
def execOverloadReleased (p : Pump) (s : State) : Answer :=
  .next (if s.overload p then
      State.atChannel p (fun s => s.reportEnd (s.pumpKey .overload p))
        (s.setLines p { s.field.pump[p] with overload := false })
    else s)

/-! ## AUTO -/

/-- A release at the channel (R76). -/
def State.autoRelease (p : Pump) (s : State) : State :=
  match (s.chan p).state with
  | .idle => s.enter p .localOff
  | .locked => s.enter p .localOff
  | .queued => (s.loseRequest p).enter p .localOff
  | .bidding => (s.loseRequest p).enter p .localOff
  | .contending => (s.loseRequest p).enter p .localOff
  | .starting => s.stop p .stopped
  | .running => s.handOver p
  | .resting => s
  | .stopping => s
  | .stopFailed => s
  | .tripped => s
  | .localOff => s
  | .localRun => s
  | .disabled => s

/-- AUTO_RELEASED (R76), an evaluation event (R90). -/
def execAutoReleased (p : Pump) (s : State) : Answer :=
  .next (if s.auto p then
      State.atChannel p (fun s => (s.autoRelease p).noteEval)
        (s.setLines p { s.field.pump[p] with auto := false })
    else s)

/-- An assertion at the channel (R76, R78). -/
def State.autoAssert (p : Pump) (s : State) : State :=
  match (s.chan p).state with
  | .localOff => s.available p
  | .localRun => s.handReturn p
  | .disabled => s
  | .idle => s
  | .resting => s
  | .queued => s
  | .bidding => s
  | .contending => s
  | .starting => s
  | .running => s
  | .stopping => s
  | .stopFailed => s
  | .tripped => s
  | .locked => s

/-- AUTO_ASSERTED (R78), an evaluation event (R90). -/
def execAutoAsserted (p : Pump) (s : State) : Answer :=
  .next (if s.auto p then s
    else State.atChannel p (fun s => (s.autoAssert p).noteEval)
      (s.setLines p { s.field.pump[p] with auto := true }))

/-! ## Gang stop -/

/-- The gang-stop input written. -/
def State.setGang (b : Bool) (s : State) : State := { s with field := { s.field with gangStop := b } }

/-- An assertion at one channel whose gang flag is set (R79). -/
def State.gangAt (p : Pump) (s : State) : State :=
  if s.gangStopped p then
    match (s.chan p).state with
    | .idle => s.enter p .locked
    | .queued => (s.loseRequest p).enter p .locked
    | .bidding => (s.loseRequest p).enter p .locked
    | .contending => (s.loseRequest p).enter p .locked
    | .starting => s.stop p .stopped
    | .running => s.stop p .stopped
    | .resting => s
    | .stopping => s
    | .stopFailed => s
    | .tripped => s
    | .localOff => s
    | .localRun => s
    | .locked => s
    | .disabled => s
  else s

/-- GANG_STOP_ASSERTED (R79): every gang channel, then the stop tests (R67) and an evaluation event (R90). The channels
act in ascending pump order, which R79 leaves open: the model's choice (log 23). -/
def execGangStopAsserted (s : State) : Answer :=
  .next (if s.field.gangStop then s
    else
      let s := s.setGang true
      if s.receiverOn then
        State.settle (State.noteEval (allPumps.foldl (fun s p => s.gangAt p) s).testStops)
      else s)

/-- A release at one channel (R79). -/
def State.ungangAt (p : Pump) (s : State) : State := if (s.chan p).state = .locked then s.available p else s

/-- GANG_STOP_RELEASED (R79): LOCKED channels take the available state; an evaluation event (R90). -/
def execGangStopReleased (s : State) : Answer :=
  .next (if s.field.gangStop then
      let s := s.setGang false
      if s.receiverOn then State.settle (State.noteEval (allPumps.foldl (fun s p => s.ungangAt p) s)) else s
    else s)

/-! ## Fire demand and off-peak -/

/-- FIRE_DEMAND_CHANGE (R86, R90). -/
def execFireDemandChange (asserted : Bool) (s : State) : Answer :=
  .next (if s.field.fireDemand = asserted then s
    else
      let s := { s with field := { s.field with fireDemand := asserted } }
      if s.receiverOn then s.noteEval.settle else s)

/-- OFF_PEAK_CHANGE (R90). -/
def execOffPeakChange (asserted : Bool) (s : State) : Answer :=
  .next (if s.field.offPeak = asserted then s
    else
      let s := { s with field := { s.field with offPeak := asserted } }
      if s.receiverOn then s.noteEval.settle else s)

/-! ## ACK and MUTE, read in every mode (R171) -/

/-- ACK_RISES (R171): each command is one rising edge; the level has no effect and is not kept (log 3). -/
def execAckRises (s : State) : Answer := .next s.acknowledge.settle

/-- MUTE at the alarm line when it is asserted (R175, R177): the line is released, a running pulse is cut short. -/
def State.muteLine (s : State) : State := { s with alarm := { s.alarm with driven := false, pulseTimer := none } }

/-- MUTE_ASSERTED (R177). -/
def execMuteAsserted (s : State) : Answer :=
  .next (if s.field.mute then s else State.muteLine { s with field := { s.field with mute := true } })

/-- MUTE at the alarm line when it is released (R175, R177). -/
def State.unmuteLine (s : State) : State :=
  match s.alarm.mode with
  | .level => { s with alarm := { s.alarm with driven := s.faults.pending } }
  | .pulse =>
    if s.alarm.heldPulse then
      let s := { s with alarm := { s.alarm with heldPulse := false } }
      if s.faults.pending then s.startPulse else s
    else s

/-- MUTE_RELEASED (R177). -/
def execMuteReleased (s : State) : Answer :=
  .next (if s.field.mute then State.unmuteLine { s with field := { s.field with mute := false } } else s)

end Sys2Proof.Machine
end

