-- ==== Sys2Proof/Machine/Dispatch.lean ====
section
/-! DEFINITION. The dispatch of a command to its meaning, one arm per constructor. -/

namespace Sys2Proof.Machine

open Sys2Proof

def exec (i : Instr) (s : State) : Host.Outcome State Fault Refusal :=
  match i with
  | .reset address polarityHigh => Sys2Proof.Machine.execReset address polarityHigh s
  | .imageReadComplete image => Sys2Proof.Machine.execImageReadComplete image s
  | .busIdleArbitration others => Sys2Proof.Machine.execBusIdleArbitration others s
  | .telegramCarried => Sys2Proof.Machine.execTelegramCarried s
  | .acknowledgeSlotEnd acknowledged => Sys2Proof.Machine.execAcknowledgeSlotEnd acknowledged s
  | .checkFailed => Sys2Proof.Machine.execCheckFailed s
  | .bidReceived src body => Sys2Proof.Machine.execBidReceived src body s
  | .vetoReceived src body => Sys2Proof.Machine.execVetoReceived src body s
  | .commitReceived src body => Sys2Proof.Machine.execCommitReceived src body s
  | .runReceived src body => Sys2Proof.Machine.execRunReceived src body s
  | .dropReceived src body => Sys2Proof.Machine.execDropReceived src body s
  | .rollReceived src body => Sys2Proof.Machine.execRollReceived src body s
  | .askReceived src body => Sys2Proof.Machine.execAskReceived src body s
  | .holdReceived src body => Sys2Proof.Machine.execHoldReceived src body s
  | .freeReceived src body => Sys2Proof.Machine.execFreeReceived src body s
  | .shedReceived src body => Sys2Proof.Machine.execShedReceived src body s
  | .clearReceived src body => Sys2Proof.Machine.execClearReceived src body s
  | .purgeReceived src body => Sys2Proof.Machine.execPurgeReceived src body s
  | .answerReceived src body => Sys2Proof.Machine.execAnswerReceived src body s
  | .unknownKindReceived priority variant src body => Sys2Proof.Machine.execUnknownKindReceived priority variant src body s
  | .rollTimerExpiry => Sys2Proof.Machine.execRollTimerExpiry s
  | .listenTimerExpiry => Sys2Proof.Machine.execListenTimerExpiry s
  | .silenceExpiry peer => Sys2Proof.Machine.execSilenceExpiry peer s
  | .contestTimerExpiry pump => Sys2Proof.Machine.execContestTimerExpiry pump s
  | .startConfirmExpiry pump => Sys2Proof.Machine.execStartConfirmExpiry pump s
  | .stopConfirmExpiry pump => Sys2Proof.Machine.execStopConfirmExpiry pump s
  | .restExpiry pump => Sys2Proof.Machine.execRestExpiry pump s
  | .minimumRunMet pump => Sys2Proof.Machine.execMinimumRunMet pump s
  | .retryHoldExpiry pump => Sys2Proof.Machine.execRetryHoldExpiry pump s
  | .guardIntervalPassed main => Sys2Proof.Machine.execGuardIntervalPassed main s
  | .sampleTimerExpiry input sample => Sys2Proof.Machine.execSampleTimerExpiry input sample s
  | .holdOverExpiry => Sys2Proof.Machine.execHoldOverExpiry s
  | .blindRunLimitReached => Sys2Proof.Machine.execBlindRunLimitReached s
  | .startUpAllowanceExpiry => Sys2Proof.Machine.execStartUpAllowanceExpiry s
  | .pulseTimerExpiry => Sys2Proof.Machine.execPulseTimerExpiry s
  | .feedbackRises pump => Sys2Proof.Machine.execFeedbackRises pump s
  | .feedbackFalls pump => Sys2Proof.Machine.execFeedbackFalls pump s
  | .overloadAsserted pump => Sys2Proof.Machine.execOverloadAsserted pump s
  | .overloadReleased pump => Sys2Proof.Machine.execOverloadReleased pump s
  | .autoReleased pump => Sys2Proof.Machine.execAutoReleased pump s
  | .autoAsserted pump => Sys2Proof.Machine.execAutoAsserted pump s
  | .gangStopAsserted => Sys2Proof.Machine.execGangStopAsserted s
  | .gangStopReleased => Sys2Proof.Machine.execGangStopReleased s
  | .fireDemandChange asserted => Sys2Proof.Machine.execFireDemandChange asserted s
  | .offPeakChange asserted => Sys2Proof.Machine.execOffPeakChange asserted s
  | .ackRises => Sys2Proof.Machine.execAckRises s
  | .muteAsserted => Sys2Proof.Machine.execMuteAsserted s
  | .muteReleased => Sys2Proof.Machine.execMuteReleased s

end Sys2Proof.Machine
end

