-- ==== Sys2Proof/Machine/Step.lean ====
section
/-! DEFINITION. One step: the command at the front of the queue, or, with none waiting, one millisecond of the
station's own timebase (log 1). -/

namespace Sys2Proof.Machine

/-- The machine with the rest of its queue. -/
def State.withPending (q : List Instr) (s : State) : State := { s with pending := q }

/-- One step (R145 to R199 through exec). An empty queue: 1 ms passes (00_scope.md "Units", log 1). -/
def step (s : State) : Host.Outcome State Fault Refusal :=
  match s.pending with
  | [] => .next (s.advance 1)
  | c :: rest => exec c (s.withPending rest)

/-- The command a table word spells, put at the front of the queue; no row gives bits, so every word leaves the
state as it is (log 20). A program comes to run by commands sent to the queue from outside (log 22). -/
def State.withFetchWord (s : State) (nbits w : Nat) : State :=
  match decodeTableWord nbits w with
  | some c => s.withPending (c :: s.pending)
  | none => s

end Sys2Proof.Machine
end

