-- ==== Sys2Proof/Safety.lean ====
section
/-! DEFINITION. What a safe station is, in the terms the statements use: the shape the rules promise of the table,
the fault file, the queue, the channels and the levels at every moment between two steps. -/

namespace Sys2Proof.Machine

/-- The claim table: at most 48 entries, in strictly ascending order of owner and pump, so no two for one claim (R2). -/
def State.TableInv (s : State) : Prop :=
  s.claims.entries.length ≤ Config.tableCapacity ∧ (s.claims.entries.map Entry.key).Pairwise (· < ·)

/-- The orphan marks (R13): an entry carries the mark exactly while its owner is marked silent, and the own station is
never marked silent. -/
def State.OrphanInv (s : State) : Prop :=
  (∀ e ∈ s.claims.entries, e.orphan = (s.rosterOf e.owner).silent) ∧ (s.rosterOf s.own).silent = false

/-- The fault file: at most 8 records, no two of one key, repeat counts 1 to 255, first times within 16 bits (R164). -/
def FaultFile.Wf (f : FaultFile) : Prop :=
  f.records.length ≤ Config.faultCapacity ∧ (f.records.map FaultRecord.key).Nodup ∧
    ∀ r ∈ f.records, 1 ≤ r.repeatCount ∧ r.repeatCount ≤ Config.repeatMax ∧ r.firstTime ≤ Config.firstTimeMax

/-- A run line is asserted exactly in STARTING and RUNNING (R58). -/
def State.RunLineInv (s : State) : Prop := ∀ p, (s.chan p).runLine = (s.chan p).state.drives

/-- The transmit queue: at most 16 telegrams with the one on the bus, the waiting ones in ascending order of kind
priority (R133). -/
def Bus.Wf (b : Bus) : Prop :=
  b.size ≤ Config.queueCapacity ∧ (b.queue.map Telegram.priority).Pairwise (· ≤ ·)

/-- The pending-ask slot is full exactly while an ANSWER waits, and at most one ANSWER waits (R142, R185). -/
def State.SlotInv (s : State) : Prop :=
  (s.bus.queue.filter (· = .answer)).length = s.resp.slot.isSome.toNat ∧ .answer ∉ s.bus.held

/-- A state that lockout rules out (R115). -/
def ChanState.seeksStart : ChanState → Bool
  | .queued => true
  | .bidding => true
  | .contending => true
  | .starting => true
  | _ => false

/-- While dry-run lockout is in force, no channel is in QUEUED, BIDDING, CONTENDING or STARTING (R115). -/
def State.LockoutInv (s : State) : Prop :=
  s.levels.lockout = true → ∀ p, (s.chan p).state.seeksStart = false

/-- A channel out of DISABLED is in use (R56). -/
def State.InUseInv (s : State) : Prop := ∀ p, (s.chan p).state ≠ .disabled → s.inUse p = true

/-- FEEDBACK is asserted in RUNNING and in LOCAL_RUN: its rise or presence leads there, its fall ends them (R63, R69, R77,
R78). -/
def State.FeedbackInv (s : State) : Prop :=
  ∀ p, (s.chan p).state = .running ∨ (s.chan p).state = .localRun → s.feedback p = true

/-- At most one own channel is in BIDDING or CONTENDING (R96, R100). -/
def State.OneContestInv (s : State) : Prop :=
  ∀ p q, (s.chan p).state.inContest = true → (s.chan q).state.inContest = true → p = q

/-- Every counter within 16 bits (R190). -/
def Counters.Wf (c : Counters) : Prop :=
  c.carried ≤ Config.counterMax ∧ c.receivedValid ≤ Config.counterMax ∧ c.checkFailures ≤ Config.counterMax ∧
  c.arbitrationLosses ≤ Config.counterMax ∧ c.unacked ≤ Config.counterMax ∧ c.displaced ≤ Config.counterMax ∧
  c.bidsSent ≤ Config.counterMax ∧ c.bidsVetoed ≤ Config.counterMax ∧ c.commits ≤ Config.counterMax ∧
  c.startFailures ≤ Config.counterMax ∧ c.sheds ≤ Config.counterMax

/-- A class credit within its bounds (R102). -/
def creditInBounds (n : Int) : Prop := -6 ≤ n ∧ n ≤ 6

/-- The bounds of the small counts: consecutive unacknowledged 0 to 3 (R130), check-error window 0 to 16 (R128),
sample windows of at most eight levels and fewer than three failures in a row (R109, R110), credits −6 to 6 (R102),
counters of 16 bits (R190). -/
def State.CountInv (s : State) : Prop :=
  s.bus.unacked ≤ Config.unackedLimit ∧ s.bus.window ≤ Config.checkErrorLimit ∧
  s.levels.a.window.length ≤ Config.windowLength ∧ s.levels.b.window.length ≤ Config.windowLength ∧
  s.levels.a.outOfRange < Config.sensorFailureCount ∧ s.levels.b.outOfRange < Config.sensorFailureCount ∧
  creditInBounds s.sched.credits.c1 ∧ creditInBounds s.sched.credits.c2 ∧ creditInBounds s.sched.credits.c3 ∧
  s.resp.counters.Wf

/-- No evaluation or pick event is left over between two steps (log 6). -/
def State.MarksClear (s : State) : Prop := s.sched.evalDue = false ∧ s.sched.pickDue = false

/-- Nothing about the lines calls for action at a channel: the release of a trip (R75), a trip (R73) or local running
(R77). -/
def State.lineQuiet (s : State) (p : Pump) : Prop :=
  s.tripReleasable p = false ∧ (s.overload p && (s.chan p).state.trips) = false ∧
  (s.feedback p && (s.chan p).state.yieldsToHand) = false

/-- A station at rest between two steps: no event left over, no line that calls for action. -/
def State.Quiet (s : State) : Prop := s.MarksClear ∧ ∀ p, s.lineQuiet p

/-- Every step keeps it (here every step answers a next state). -/
def StepKeeps (inv : State → Prop) : Prop := ∀ s t, inv s → step s = .next t → inv t

/-! ## The terms of the statements -/

/-- The command answers a next state, and this holds of it. -/
def Completes (c : Instr) (s : State) (holds : State → Prop) : Prop := ∃ t, exec c s = .next t ∧ holds t

/-- The command answers the settling (log 6: the evaluation and the picks the step has caused) of a state of which this
holds: what the command itself does, before those events are taken. -/
def CompletesSettled (c : Instr) (s : State) (holds : State → Prop) : Prop :=
  ∃ v, exec c s = .next v.settle ∧ holds v

/-- The source address of a reception; none for the other commands. -/
def receptionSource : Instr → Option Addr
  | .bidReceived src _ => some src
  | .vetoReceived src _ => some src
  | .commitReceived src _ => some src
  | .runReceived src _ => some src
  | .dropReceived src _ => some src
  | .rollReceived src _ => some src
  | .askReceived src _ => some src
  | .holdReceived src _ => some src
  | .freeReceived src _ => some src
  | .shedReceived src _ => some src
  | .clearReceived src _ => some src
  | .purgeReceived src _ => some src
  | .answerReceived src _ => some src
  | .unknownKindReceived _ _ src _ => some src
  | _ => none

/-- The sender is not marked silent; a service station never is (R10, R13). -/
def State.audible (s : State) (src : Addr) : Prop :=
  ∀ a, Addr.station? src = some a → (s.rosterOf a).silent = false

/-- A telegram of this sender counted, acknowledged and heard, and nothing else (R11, R127, R129). -/
def State.heardFrom (src : Addr) (s : State) : State :=
  { s with
    bus := { s.bus with ackSignal := true }
    resp := { s.resp with
      counters := { s.resp.counters with
        receivedValid := min (s.resp.counters.receivedValid + 1) Config.counterMax } }
    claims := { s.claims with
      roster := match Addr.station? src with
                | some a => s.claims.roster.set a
                    { s.rosterOf a with heard := true, lastHeard := some s.now, silent := false }
                | none => s.claims.roster } }

/-- The file shows this report: an unacknowledged record of the key, or the overflow flag (R166, R167). -/
def FaultFile.shows (f : FaultFile) (key : FaultKey) : Prop :=
  (∃ r ∈ f.records, r.key = key ∧ r.acked = false) ∨ f.overflow = true

/-- The file after a condition report (`standing`) or an event report of a key at an uptime in seconds: a record of the
key counts it, without one a record is appended where fewer than eight stand, and else the report is lost and sets the
overflow flag (R166, R167). -/
def FaultFile.Takes (standing : Bool) (key : FaultKey) (uptime : Nat) (f g : FaultFile) : Prop :=
  ((∃ r ∈ f.records, r.key = key) →
    g = ⟨f.records.map (fun r => if r.key = key then
          { r with repeatCount := min (r.repeatCount + 1) 255, acked := false, standing := r.standing || standing }
        else r), f.overflow⟩) ∧
  ((∀ r ∈ f.records, r.key ≠ key) →
    (f.records.length < 8 → g = ⟨f.records ++ [⟨key, min uptime 65535, 1, standing, false⟩], f.overflow⟩) ∧
    (8 ≤ f.records.length → g = ⟨f.records, true⟩))

/-- The file after the end report of a key: a standing record of it that is acknowledged goes, one that is not stays and
stands no longer (R168). -/
def FaultFile.Ends (key : FaultKey) (f g : FaultFile) : Prop :=
  g = ⟨(f.records.filter (fun r => !(decide (r.key = key) && r.standing && r.acked))).map
        (fun r => if r.key = key then { r with standing := false } else r), f.overflow⟩

/-- The records of these keys are the same in both files. -/
def FaultFile.keeps (which : FaultKey → Prop) (f g : FaultFile) : Prop :=
  ∀ r : FaultRecord, which r.key → (r ∈ g.records ↔ r ∈ f.records)

/-- The records of this kind are the same in both files. -/
def FaultFile.keepsKind (kind : FaultKind) (f g : FaultFile) : Prop := f.keeps (fun k => k.kind = kind) g

/-- The kinds a telegram of a sender that is not heard may report or end whatever it is: un-silencing (R14, R165). -/
def hearingKinds : List FaultKind := [.peerSilent, .digestMismatch]

/-- The kinds a change of the table may report or end (R4, R48, R165). -/
def tableKinds : List FaultKind := [.tableFull, .overBudget]

/-- The kinds of fault that the blocks a command acts on raise, by the table of R165. -/
def reportKinds : Instr → List FaultKind
  | .bidReceived _ _ => .membership :: hearingKinds ++ tableKinds
  | .vetoReceived _ _ => .lateVeto :: hearingKinds ++ tableKinds
  | .commitReceived _ _ => .divergence :: hearingKinds ++ tableKinds
  | .runReceived _ _ => .divergence :: hearingKinds ++ tableKinds
  | .dropReceived _ _ => hearingKinds ++ tableKinds
  | .rollReceived _ _ => .divergence :: .remoteLevelStale :: hearingKinds ++ tableKinds
  | .purgeReceived _ _ => .siteCode :: hearingKinds ++ tableKinds
  | .holdReceived _ _ => .siteCode :: hearingKinds
  | .freeReceived _ _ => .siteCode :: hearingKinds
  | .shedReceived _ _ => .siteCode :: hearingKinds
  | .askReceived _ _ => hearingKinds
  | .answerReceived _ _ => hearingKinds
  | .unknownKindReceived _ _ _ _ => hearingKinds
  | .acknowledgeSlotEnd _ => [.isolated]
  | .listenTimerExpiry => [.isolated]
  | .sampleTimerExpiry .a _ => [.levelSensor, .dryRun]
  | .sampleTimerExpiry .b _ => [.levelSensor, .remoteLevelStale]
  | .holdOverExpiry => [.dryRun, .remoteLevelStale]
  | .startUpAllowanceExpiry => [.dryRun, .remoteLevelStale]
  | .startConfirmExpiry _ => [.startFail]
  | .stopConfirmExpiry _ => [.stopFail]
  | .feedbackFalls _ => [.stopFail]
  | .overloadAsserted _ => [.overload]
  | .overloadReleased _ => [.overload]
  | _ => []

/-- The kinds of fault that an own telegram may report or end when it acts on its own station, as its reception does. -/
def sentKinds : Sent → List FaultKind
  | .bid c => reportKinds (.bidReceived 0 c.bytes)
  | .veto v => reportKinds (.vetoReceived 0 v.bytes)
  | .commit c => reportKinds (.commitReceived 0 c.bytes)
  | .run r => reportKinds (.runReceived 0 r.bytes)
  | .drop d => reportKinds (.dropReceived 0 d.bytes)
  | .roll b => reportKinds (.rollReceived 0 b.bytes)
  | .answer b => reportKinds (.answerReceived 0 b.bytes)

/-- From `s` to `t` no record changes, appears or goes but those of the keys that may; in ISOLATED an island start of the
same step may change those of the table (R82). -/
def RecordsStay (may : FaultKey → Prop) (s t : State) : Prop :=
  s.faults.keeps (fun k => ¬ may k ∧ (k.kind ∈ tableKinds → t.ctl.mode ≠ .isolated)) t.faults

/-- The alarm line has followed a change of the file from `u` to `v`: in LEVEL it is driven while the alarm is pending and
MUTE released; in PULSE the onset of the pending alarm begins a pulse, or is held under MUTE, and nothing else changes
(R173, R175, R176). -/
def AlarmFollows (u v : State) : Prop :=
  (u.alarm.mode = .level → v.alarm = { u.alarm with driven := v.faults.pending && !v.field.mute }) ∧
  (u.alarm.mode = .pulse →
    (u.faults.pending = false → v.faults.pending = true →
      (v.field.mute = false → v.alarm = { u.alarm with driven := true, pulseTimer := some v.now }) ∧
      (v.field.mute = true → v.alarm = { u.alarm with heldPulse := true })) ∧
    (u.faults.pending = true ∨ v.faults.pending = false → v.alarm = u.alarm))

/-- The freeze of the outputs after a channel has left STARTING or STOPPING: the hold-over begins where no other
channel is in one of them, and else nothing changes (R112). -/
def FreezeReleased (p : Pump) (u v : State) : Prop :=
  ((∀ q, q ≠ p → (u.chan q).state ≠ .starting ∧ (u.chan q).state ≠ .stopping) →
    v.levels = { u.levels with freeze := .holdOver, holdOver := some v.now }) ∧
  ((∃ q, q ≠ p ∧ ((u.chan q).state = .starting ∨ (u.chan q).state = .stopping)) → v.levels = u.levels)

/-- The moment a timer that was started then, or a measure that began then, ends; not before the present. -/
def State.endOf (s : State) (start length : Nat) : Nat := max s.now (start + length)

/-- Room in the transmit queue (R133). -/
def State.roomy (s : State) : Prop := s.bus.size < Config.queueCapacity

/-- The main of a pump, and its load, as its record gives them (R55). -/
def State.claimOf (s : State) (p : Pump) (st : ClaimState) (d : ClaimDesc) : Entry :=
  ⟨s.own, p, s.img.main p, s.img.load p, d.cls, st, d.bid, d.manual, d.island, false⟩

/-- A stop condition of R66 that needs no minimum run. -/
def State.mustStop (s : State) (p : Pump) : Prop :=
  s.levels.lockout = true ∨ s.gangStopped p = true ∨ s.deliveryAtLeast s.img.highHigh = true

/-- A stop condition of R66 that waits for the minimum run. -/
def State.mayStop (s : State) (p : Pump) (d : ClaimDesc) : Prop :=
  d.cls ≠ 0 ∧ (s.deliveryAtLeast (s.img.pumps[p]).stopLevel = true ∨
    (s.levels.blindReached = true ∧ s.delivery = none))

/-- The own telegram on the bus, carried, counted and heard (R126, R190), at the moment it acts. -/
def State.carrying (t : Sent) (s : State) : State :=
  State.hear s.loader.address
    (State.countCarried t { s with bus := { s.bus with onBus := none, slotOpen := true, ackSignal := false } })

/-- TELEGRAM_CARRIED answers the settling of a state of which this holds, with the held telegrams entered (R134): what
the own telegram itself does. -/
def CompletesCarried (s : State) (holds : State → Prop) : Prop :=
  ∃ v, exec .telegramCarried s = .next v.settle.enterHeld.settle ∧ holds v

/-- In LOADING every block stands at its reset values; only the lines, the straps, the clock and the waiting commands
are the station's own (R145, R147). -/
def State.LoadingInv (s : State) : Prop :=
  s.ctl.mode = .loading →
    { s with now := 0 } = State.afterReset s.field s.loader.address s.loader.polarity s.pending

/-- The alarm line: in LEVEL it is driven exactly while the alarm is pending and MUTE released (R175); in PULSE it is
driven exactly during a pulse, and never under MUTE (R176, R177). -/
def State.AlarmInv (s : State) : Prop :=
  match s.alarm.mode with
  | .level => s.alarm.driven = (s.faults.pending && !s.field.mute) ∧ s.alarm.pulseTimer = none
  | .pulse => s.alarm.driven = s.alarm.pulseTimer.isSome ∧ (s.field.mute = true → s.alarm.driven = false)

/-- Only a judging station has a bid in flight (R46, R62). -/
def State.JudgingInv (s : State) : Prop := s.judging = false → ∀ p, (s.chan p).state.inContest = false

/-- A channel has a request exactly in QUEUED, BIDDING and CONTENDING (R88). -/
def State.RequestInv (s : State) : Prop := ∀ p, (s.request p).isSome = (s.chan p).state.requests

/-- A state a channel rests in when it is available, by its lines (R59). -/
def State.availableState (s : State) (p : Pump) : ChanState :=
  if s.auto p = false then .localOff else if s.gangStopped p = true then .locked else .idle

/-- A waiting telegram. -/
def State.waiting (s : State) (t : Telegram) : Prop := t ∈ s.bus.queue

/-- The BID is refused for this reason: it answers a next state, no entry is made or changed, and the VETO that says so
waits where the queue has room (R28, R31). `u` is the state the BID acts on. -/
def BidRefused (src : Addr) (o : Station) (body : List Byte) (c : ClaimFields) (r : RefusalReason) (s u : State) :
    Prop :=
  CompletesSettled (.bidReceived src body) s (fun v =>
    v.claims.entries = u.claims.entries ∧ (u.roomy → v.waiting (.veto ⟨o, c.pump, c.bid, r⟩)))

/-- The BID is admitted: it answers a next state in which the claim is HELD in the table (R28, R30). -/
def BidAdmitted (src : Addr) (o : Station) (body : List Byte) (c : ClaimFields) (s : State) : Prop :=
  CompletesSettled (.bidReceived src body) s (fun v =>
    v.entry o c.pump = some ⟨o, c.pump, c.main, c.load, c.cls, .held, c.bid, false, false, false⟩)

/-- No DROP of the pump waits or is on the bus (R84). -/
def State.noDrop (s : State) (p : Pump) : Prop :=
  s.bus.waits (Telegram.isDropOf p) = false ∧ s.bus.carries (Telegram.isDropOf p) = false

/-- No RUN of the pump is on the bus (R84). -/
def State.noRun (s : State) (p : Pump) : Prop := s.bus.carries (Telegram.isRunOf p) = false

/-- Of the BIDs of a pump at most one waits or is on the bus (R133). -/
def State.oneBidOf (s : State) (p : Pump) : Prop :=
  (s.bus.queue.filter (Telegram.isBidOf p)).length + (s.bus.carries (Telegram.isBidOf p)).toNat ≤ 1

/-- The queue can take that many DROPs: it has so many free places and telegrams to displace (R136). -/
def State.takesDrops (n : Nat) (s : State) : Prop :=
  s.bus.size + n ≤ 16 + (s.bus.queue.filter Telegram.displaceable).length

/-- Room in the transmit queue once the waiting VETOs are removed. -/
def State.roomyButVetos (s : State) : Prop := s.bus.size < 16 + (s.bus.queue.filter Telegram.isVeto).length

/-- What the withdrawal of a channel in BIDDING or CONTENDING does to its telegrams (R46, R47): its BID or COMMIT
waits no longer, and where its BID is on the bus or it was CONTENDING its DROP (WITHDRAWN) waits, given room; no bid
is counted as vetoed. Of a BID this is said where `alone` holds or the pump has one BID alone: the DROP of another
channel could displace one of two BIDs of it, which returns it to QUEUED before its withdrawal (R137). -/
def TelegramsWithdrawn (alone room : Prop) (p : Pump) (u v : State) : Prop :=
  v.resp.counters.bidsVetoed = u.resp.counters.bidsVetoed ∧
  ((u.chan p).state = .bidding → alone ∨ u.oneBidOf p → (∀ t ∈ v.bus.queue, t.isBidOf p = false) ∧
    (u.bus.carries (Telegram.isBidOf p) = true → u.noDrop p → room → v.waiting (.drop ⟨p, .withdrawn⟩))) ∧
  ((u.chan p).state = .contending → (v.chan p).contest = none ∧ (∀ t ∈ v.bus.queue, t.isCommitOf p = false) ∧
    (u.noDrop p → room → v.waiting (.drop ⟨p, .withdrawn⟩)))

/-- Dry-run lockout has acted on the channels (R81, R62): none seeks a start or runs; one in QUEUED, BIDDING or CONTENDING
has lost its request and is available, a bid in hand withdrawn. -/
def LockedOut (s v : State) : Prop :=
  ∀ p, (v.chan p).state.seeksStart = false ∧ (v.chan p).state ≠ .running ∧
    ((s.chan p).state.requests = true → (v.chan p).state = s.availableState p ∧ v.request p = none) ∧
    ((s.chan p).state.inContest = true → (v.chan p).claim = none ∧
      TelegramsWithdrawn False (s.takesDrops 6) p s v)

/-! ## Counted load, room and shedding -/

/-- The sum of the loads of all entries (R6). -/
def State.loadSum (s : State) : Nat := (s.claims.entries.map Entry.load).sum

/-- No record of the key stands: its condition has ended (R168). -/
def FaultFile.ended (f : FaultFile) (key : FaultKey) : Prop := ∀ r ∈ f.records, r.key = key → r.standing = false

/-- From `u` to `v` OVER_BUDGET follows the counted load: it starts above the cap, it ends at or below it, and while
the comparison stays as it is nothing of its key is recorded or changed (R48). -/
def BudgetFollows (u v : State) : Prop :=
  (u.loadSum ≤ u.img.cap → u.img.cap < v.loadSum → v.faults.shows ⟨.overBudget, none, none, none⟩) ∧
  (u.img.cap < u.loadSum → v.loadSum ≤ u.img.cap → v.faults.ended ⟨.overBudget, none, none, none⟩) ∧
  ((u.img.cap < u.loadSum ↔ u.img.cap < v.loadSum) →
    ∀ r ∈ v.faults.records, r.key = ⟨.overBudget, none, none, none⟩ → r ∈ u.faults.records)

/-- A table with a free entry in `v` has TABLE_FULL no longer in force; a condition that was in force in `u` has ended in
the file, and where none was in force nothing of its kind is recorded or changed (R4, R22). -/
def RoomFollows (u v : State) : Prop :=
  v.claims.entries.length < 48 → (u.claims.full = true → v.faults.ended ⟨.tableFull, none, none, none⟩) ∧
    (u.claims.full = false → u.faults.keepsKind .tableFull v.faults) ∧ v.claims.full = false

/-- An entry that shedding may choose (R50). -/
def Entry.mayBeShed (e : Entry) : Prop :=
  e.state = .running ∧ (e.cls = 2 ∨ e.cls = 3) ∧ e.orphan = false ∧ e.manual = false ∧ e.island = false

/-- The victim of the table is the own entry of this pump: of the entries that shedding may choose it is the one of the
highest class, among equals of the highest owner, among equals of the highest pump (R50). -/
def State.ownVictim (s : State) (p : Pump) : Prop :=
  ∃ e ∈ s.claims.entries, e.owner = s.own ∧ e.pump = p ∧ e.mayBeShed ∧
    ∀ x ∈ s.claims.entries, x.mayBeShed →
      x.cls < e.cls ∨ (x.cls = e.cls ∧ (x.owner < e.owner ∨ (x.owner = e.owner ∧ x.pump ≤ e.pump)))

/-- A shed evaluation on the table of `v` (R50 to R52): the own RUNNING channel of the victim stops for shedding and is
counted; no other channel changes, and without such a channel nothing is counted. Of a channel in BIDDING this is said
where FeedbackInv holds: a victim found with FEEDBACK released queues its DROP at once, which may displace a waiting BID
(R137). -/
def ShedActs (u v : State) : Prop :=
  (∀ p, ((u.chan p).state = .running → v.ownVictim p →
      (v.chan p).state ≠ .running ∧ (v.chan p).runLine = false ∧ (v.chan p).currentRun = none ∧
      v.resp.counters.sheds = min (u.resp.counters.sheds + 1) 65535 ∧
      (u.feedback p = true → (v.chan p).state = .stopping ∧ (v.chan p).stopReason = some .shed ∧
        (v.chan p).stopConfirm = some u.now ∧ (v.chan p).claim = (u.chan p).claim) ∧
      (u.feedback p = false → (v.chan p).claim = none ∧
        (u.noDrop p → u.roomy → v.waiting (.drop ⟨p, .shed⟩)))) ∧
    ((u.chan p).state ≠ .running ∨ ¬ v.ownVictim p → u.FeedbackInv ∨ (u.chan p).state ≠ .bidding →
      v.chan p = u.chan p)) ∧
  ((∀ p, (u.chan p).state = .running → ¬ v.ownVictim p) → v.resp.counters.sheds = u.resp.counters.sheds)

/-- A change of the table from `u` to `v` handed on (R22, R26, R48, R49): OVER_BUDGET and TABLE_FULL follow it; a
judging station whose counted load has changed and is above the cap evaluates shedding, and otherwise no channel
changes. -/
def HandedOn (u v : State) : Prop :=
  BudgetFollows u v ∧ RoomFollows u v ∧
  (u.judging = true → v.loadSum ≠ u.loadSum → u.img.cap < v.loadSum → ShedActs u v) ∧
  (u.judging = false ∨ v.loadSum = u.loadSum ∨ v.loadSum ≤ u.img.cap →
    (∀ p, v.chan p = u.chan p) ∧ v.resp.counters.sheds = u.resp.counters.sheds)

/-- How many entries the table holds when reconciliation comes to the creation of this pump's entry: those that are not
removed, and one for each listed pump below it that had none (R19). -/
def State.placesBefore (s : State) (o : Station) (listed : List Descriptor) (p : Pump) : Nat :=
  (s.claims.entries.filter (fun e => decide (e.owner ≠ o) || listed.any (fun d => decide (d.pump = e.pump)))).length
    + (listed.filter (fun d => decide (d.pump < p) && (s.entry o d.pump).isNone)).length

/-- A VETO from this source has acted on the station (R34 to R37): the own VETOs for the bid leave the queue; the HELD
entry of its owner, pump and bid number goes, with the change handed on; a STARTING or RUNNING one stays, which its owner,
and no other station, records; an own contest of the bid ends. -/
def VetoActs (src : Addr) (f : VetoFields) (u v : State) : Prop :=
  (∀ t ∈ v.bus.queue, t.isVetoFor f.owner f.pump f.bid = false) ∧
  (∀ a p, (a, p) ≠ (f.owner, f.pump) → v.entry a p = u.entry a p) ∧
  (u.entry f.owner f.pump = none →
    v.entry f.owner f.pump = none ∧ u.faults.keepsKind .lateVeto v.faults) ∧
  (∀ e, u.entry f.owner f.pump = some e →
    (e.bid = f.bid → e.state = .held → v.entry f.owner f.pump = none ∧ BudgetFollows u v ∧ RoomFollows u v ∧
      (u.judging = true → v.loadSum ≠ u.loadSum → u.img.cap < v.loadSum →
        ∀ p, v.ownVictim p → (v.chan p).state ≠ .running) ∧
      (f.owner ≠ u.own ∨ (u.chan f.pump).state ≠ .contending ∨
        (∀ d, (u.chan f.pump).claim = some d → d.bid ≠ f.bid) → HandedOn u v)) ∧
    (e.bid ≠ f.bid ∨ e.state ≠ .held → v.claims = u.claims) ∧
    (f.owner ≠ u.own ∨ e.bid ≠ f.bid ∨ e.state = .held → u.faults.keepsKind .lateVeto v.faults) ∧
    (e.bid = f.bid → e.state ≠ .held → f.owner = u.own →
      v.faults.shows ⟨.lateVeto, none, some src, none⟩ ∧
      FaultFile.Takes false ⟨.lateVeto, none, some src, none⟩ (u.now / 1000) u.faults v.faults)) ∧
  (∀ d, f.owner = u.own → (u.chan f.pump).state = .contending → (u.chan f.pump).claim = some d →
    d.bid = f.bid →
    (v.chan f.pump).state = .queued ∧ (v.chan f.pump).claim = none ∧ (v.chan f.pump).contest = none ∧
    v.request f.pump = (u.request f.pump).map (fun q => { q with hold := some u.now }) ∧
    v.resp.counters.bidsVetoed = min (u.resp.counters.bidsVetoed + 1) 65535 ∧
    ∀ t ∈ v.bus.queue, t.isCommitOf f.pump = false)

/-! ## Digest mismatch -/

/-- A mismatching station (R160): not the own one, not silent, its digest present and another than the own. -/
def State.mismatching (s : State) (a : Station) : Prop :=
  a ≠ s.own ∧ (s.rosterOf a).silent = false ∧ (s.rosterOf a).digest ≠ none ∧ (s.rosterOf a).digest ≠ s.loader.digest

/-- The key of DIGEST_MISMATCH (R161). -/
def mismatchKey (a : Station) : FaultKey := ⟨.digestMismatch, none, some a.addr, none⟩

/-- Every channel of `u` in BIDDING or CONTENDING is withdrawn to QUEUED in `v` with its request kept, and its telegrams
with it (R46, R47, R62); what else waits stays waiting (R139): every DROP, the RUN of a channel that neither contests nor
stops, and the ROLL and an ANSWER where the queue has room but for its VETOs (log 25). `calm`: no other DROP is queued. -/
def Withdraws (alone calm : Prop) (u v : State) : Prop :=
  (∀ p, (u.chan p).state.inContest = true →
    (v.chan p).state = .queued ∧ (v.chan p).claim = none ∧ (v.chan p).contest = none ∧ v.request p = u.request p ∧
    TelegramsWithdrawn alone (u.takesDrops 6 ∨ (u.OneContestInv ∧ calm ∧ u.takesDrops 1)) p u v) ∧
  (∀ d, u.waiting (.drop d) → v.waiting (.drop d)) ∧
  (∀ r : RunFields, u.waiting (.run r) → (u.chan r.pump).state.inContest = false →
    (u.chan r.pump).state ≠ .running ∨ u.feedback r.pump = true → v.waiting (.run r)) ∧
  (u.bus.size + 6 ≤ 16 ∨ (u.OneContestInv ∧ calm ∧ u.roomyButVetos) →
    (u.waiting .roll → v.waiting .roll) ∧ (u.waiting .answer → v.waiting .answer))

/-- A digest mismatch has started (R161): it is recorded, no VETO waits, and every channel in BIDDING or CONTENDING is
withdrawn to QUEUED. -/
def MismatchStarts (alone : Prop) (a : Station) (u v : State) : Prop :=
  v.faults.shows (mismatchKey a) ∧ (∀ t ∈ v.bus.queue, t.isVeto = false) ∧ Withdraws alone u.FeedbackInv u v

/-- From `u` to `v` the digest mismatch condition follows the roster of `v` (R160 to R162): the mismatching peer is the
lowest mismatching station; a start has its effects; a hand-over ends the old record and makes the new one; an end ends
the record and is a pick event. But for a start, no channel in BIDDING or CONTENDING is withdrawn and, in a queue with
room, no VETO goes; of a channel in BIDDING this is said where FeedbackInv holds, as in ShedActs. Where the mismatching
peer stays as it was, nothing of the kind is recorded or changed. Every request is kept. -/
def MismatchFollows (alone : Prop) (u v : State) : Prop :=
  (∀ a, v.ctl.mismatch = some a ↔ v.mismatching a ∧ ∀ b, v.mismatching b → a ≤ b) ∧
  (∀ a, u.ctl.mismatch = none → v.ctl.mismatch = some a → MismatchStarts alone a u v) ∧
  (∀ a b, u.ctl.mismatch = some a → v.ctl.mismatch = some b → a ≠ b →
    v.faults.ended (mismatchKey a) ∧ v.faults.shows (mismatchKey b)) ∧
  (∀ a, u.ctl.mismatch = some a → v.ctl.mismatch = none →
    v.faults.ended (mismatchKey a) ∧ v.sched.pickDue = true) ∧
  (u.ctl.mismatch ≠ none ∨ v.ctl.mismatch = none →
    (∀ p, (u.chan p).state.inContest = true → u.FeedbackInv ∨ (u.chan p).state ≠ .bidding → v.chan p = u.chan p) ∧
    (u.bus.size + 6 ≤ 16 → ∀ t ∈ u.bus.queue, t.isVeto = true → t ∈ v.bus.queue)) ∧
  (u.ctl.mismatch = v.ctl.mismatch → u.faults.keepsKind .digestMismatch v.faults) ∧
  ∀ p, v.request p = u.request p

/-! ## The contents of an ANSWER (11.3) -/

/-- The number that bytes give, most significant first. -/
def valueOf (bytes : List Byte) : Nat := bytes.foldl (fun n b => 256 * n + b.toNat) 0

/-- The bytes of a STATION content say this of the station (R187). -/
def StationStated (bs : List Byte) (s : State) : Prop :=
  bs.length = 5 ∧ (s.ctl.mode = .listen → bs[0]? = some 1#8) ∧ (s.ctl.mode = .active → bs[0]? = some 2#8) ∧
  (s.ctl.mode = .isolated → bs[0]? = some 3#8) ∧
  bs[1]?.map (fun f => (f.getLsbD 0, f.getLsbD 1, f.getLsbD 2, f.getLsbD 3, f.getLsbD 4, f.getLsbD 5, f.extractLsb' 6 2))
    = some (s.ctl.hold, s.ctl.mismatch.isSome, s.faults.overflow, s.faults.pending, s.levels.lockout,
        s.delivery.isNone, 0#2) ∧
  (s.loadSum ≤ 65535 → valueOf ((bs.drop 2).take 2) = s.loadSum) ∧
  (s.claims.entries.length ≤ 255 → valueOf (bs.drop 4) = s.claims.entries.length)

/-- The eight bytes of a CHANNELS record say this of the channel (R187). -/
def ChannelStated (bs : List Byte) (s : State) (p : Pump) : Prop :=
  bs.length = 8 ∧
  ([.disabled, .idle, .resting, .queued, .bidding, .contending, .starting, .running, .stopping, .stopFailed, .tripped,
    .localOff, .localRun, .locked] : List ChanState)[valueOf (bs.take 1)]? = some (s.chan p).state ∧
  bs[1]?.map (fun f => (f.getLsbD 0, f.getLsbD 1, f.extractLsb' 2 2, f.extractLsb' 4 3, f.getLsbD 7))
    = some ((s.chan p).serviceBlock, (s.chan p).lastStart.isSome, 0#2,
        (match s.request p with
         | some r => BitVec.ofNat 3 r.cls.val
         | none => 7#3), false) ∧
  valueOf ((bs.drop 2).take 4) = min ((s.chan p).totalRun / 1000) 4294967295 ∧
  ((s.chan p).lastStart = none → valueOf (bs.drop 6) = 0) ∧
  ∀ n, (s.chan p).lastStart = some n → n ≤ 65535 → valueOf (bs.drop 6) = n

/-- The eight bytes of a CLAIMS entry say this of it (R188). -/
def EntryStated (bs : List Byte) (e : Entry) : Prop :=
  bs.length = 8 ∧ valueOf (bs.take 1) = e.owner.val ∧ valueOf ((bs.drop 1).take 1) = e.pump.val ∧
  valueOf ((bs.drop 2).take 1) = e.main.val ∧ (e.load ≤ 255 → valueOf ((bs.drop 3).take 1) = e.load) ∧
  valueOf ((bs.drop 4).take 1) = e.cls.val ∧
  (e.state = .held → bs[5]? = some 1#8) ∧ (e.state = .starting → bs[5]? = some 2#8) ∧
  (e.state = .running → bs[5]? = some 3#8) ∧ bs[6]? = some e.bid ∧
  bs[7]?.map (fun f => (f.getLsbD 0, f.getLsbD 1, f.getLsbD 2, f.extractLsb' 3 5))
    = some (e.manual, e.island, e.orphan, 0#5)

/-- The six bytes of a FAULTS record say this of it (R187). -/
def FaultStated (bs : List Byte) (r : FaultRecord) : Prop :=
  bs.length = 6 ∧
  bs[0]?.bind (fun f => ([.stopFail, .overload, .dryRun, .levelSensor, .remoteLevelStale, .peerSilent, .digestMismatch,
    .tableFull, .overBudget, .isolated, .configImage, .startFail, .lateVeto, .divergence, .checkErrors, .siteCode,
    .membership] : List FaultKind)[(f.extractLsb' 0 5).toNat - 1]?) = some r.key.kind ∧
  bs[0]?.map (fun f => (f.extractLsb' 0 5 == 0#5, f.getLsbD 5, f.getLsbD 6, f.getLsbD 7))
    = some (false, false, r.standing, r.acked) ∧
  bs[1]?.map (fun g => ((g.extractLsb' 4 4).toNat, (g.extractLsb' 0 4).toNat))
    = some ((r.key.pump.map Fin.val).getD 15, (r.key.main.map Fin.val).getD 15) ∧
  valueOf ((bs.drop 2).take 1) = (r.key.peer.map Fin.val).getD 255 ∧
  (r.firstTime ≤ 65535 → valueOf ((bs.drop 3).take 2) = r.firstTime) ∧
  (r.repeatCount ≤ 255 → valueOf (bs.drop 5) = r.repeatCount)

/-- The eleven counters in the order of R190. -/
def Counters.inOrder (c : Counters) : List Nat :=
  [c.carried, c.receivedValid, c.checkFailures, c.arbitrationLosses, c.unacked, c.displaced, c.bidsSent, c.bidsVetoed,
    c.commits, c.startFailures, c.sheds]

/-- The code of a level in a ROSTER record. -/
def levelStated (n : Nat) : Option Level → Prop
  | some (.cm k) => k ≤ 2000 → n = k
  | some .invalid => n = 2046
  | none => n = 2047

/-- The eight bytes of a ROSTER record say this of the record (R189). -/
def RosterStated (bs : List Byte) (a : Station) (r : RosterRecord) : Prop :=
  let x := BitVec.ofNat 64 (valueOf bs)
  bs.length = 8 ∧ (x.extractLsb' 60 4).toNat = a.val ∧ x.getLsbD 59 = r.heard ∧ x.getLsbD 58 = r.silent ∧
  (r.hold = none → x.extractLsb' 56 2 = 0#2) ∧ (r.hold = some false → x.extractLsb' 56 2 = 1#2) ∧
  (r.hold = some true → x.extractLsb' 56 2 = 2#2) ∧
  (r.mode = none → x.extractLsb' 54 2 = 0#2) ∧ (r.mode = some .listen → x.extractLsb' 54 2 = 1#2) ∧
  (r.mode = some .active → x.extractLsb' 54 2 = 2#2) ∧ (r.mode = some .isolated → x.extractLsb' 54 2 = 3#2) ∧
  levelStated (x.extractLsb' 43 11).toNat r.suction ∧ levelStated (x.extractLsb' 32 11).toNat r.delivery ∧
  (r.digest = none → x.extractLsb' 16 16 = 0#16) ∧ (∀ d, r.digest = some d → x.extractLsb' 16 16 = d) ∧
  (r.lastHeard = none → (x.extractLsb' 0 16).toNat = 65535) ∧
  ∀ t, r.lastHeard = some t → (x.extractLsb' 0 16).toNat = min (t / 1000) 65534

/-! ## Class credits (R102) -/

/-- What a class of 1 to 3 adds to its credit at a pick: its weight, if it has an eligible request. -/
def State.addedWeight (s : State) (c : Class) : Int :=
  if s.anyEligible c = false then 0 else if c = 1 then 3 else if c = 2 then 2 else 1

/-- The credit of a class of 1 to 3. -/
def Credits.of (k : Credits) (c : Class) : Int := if c = 1 then k.c1 else if c = 2 then k.c2 else k.c3

/-- Held at the bounds −6 and 6. -/
def heldCredit (n : Int) : Int := max (-6) (min 6 n)

/-- The credit of a class after the first two steps of a pick. -/
def State.raisedCredit (s : State) (c : Class) : Int :=
  if s.anyEligible c = false then 0 else heldCredit (s.sched.credits.of c + s.addedWeight c)

end Sys2Proof.Machine
end

