-- ==== Sys2Proof/Certificates/Slice0/Obligations.lean ====
section
/-! DEFINITION. The statements for the provers. Completes, CompletesSettled and CompletesCarried (Safety.lean) say
that a command answers a next state and what holds of it; `u` is the state a reception acts on, the telegram counted
and its sender heard. -/

open Sys2Proof Sys2Proof.Machine

/-! ## The step -/

/-- A step with a command at the front of the queue is exec of that command on the state with the queue's rest. -/
def Obligations.StepRunsFrontCommand : Prop :=
  ∀ (c : Instr) (rest : List Instr) (s : State),
    s.pending = c :: rest → step s = exec c { s with pending := rest }

/-- The model's choice, log 1: a step with no command waiting lets 1 ms pass; the run times of RUNNING channels count,
and nothing else changes. -/
def Obligations.IdleStepPassesOneMillisecond : Prop :=
  ∀ s : State, s.pending = [] → ∃ t, step s = .next t ∧
    t = { s with now := s.now + 1, pumps := { s.pumps with chan := t.pumps.chan } } ∧
    ∀ p, ((s.chan p).state = .running →
        t.chan p = { s.chan p with totalRun := (s.chan p).totalRun + 1,
                                   currentRun := (s.chan p).currentRun.map (· + 1) }) ∧
      ((s.chan p).state ≠ .running → t.chan p = s.chan p)

/-- Every command, in every state, answers a next state, and leaves the commands that wait as they are. -/
def Obligations.EveryCommandAnswersNext : Prop :=
  ∀ (c : Instr) (s : State), ∃ t, exec c s = .next t ∧ t.pending = s.pending

/-! ## Start-up -/

/-- RESET leaves every block at its reset values with the straps latched; the field lines and the waiting commands
stay (log 3). -/
def Obligations.ResetRestoresResetValues : Prop :=
  ∀ (a : Addr) (high : Bool) (s : State), Completes (.reset a high) s (fun t =>
    t.now = 0 ∧ t.field = s.field ∧ t.pending = s.pending ∧ t.loader = ⟨a, high, none, none⟩ ∧
    t.ctl = ⟨.loading, none, false, false, none⟩ ∧ t.claims.entries = [] ∧
    (∀ m : Main, t.claims.settle[m] = none) ∧ t.claims.full = false ∧
    (∀ p, t.chan p = ⟨.disabled, false, none, none, 0, none, none, false, false, false, none, none, none, none⟩) ∧
    t.pumps.bidNumber = 0#8 ∧ (∀ p, t.request p = none) ∧ t.sched.credits = ⟨0, 0, 0⟩ ∧
    t.levels = ⟨⟨[], 0, true, none, none⟩, ⟨[], 0, true, none, none⟩, .opened, none, true, true, none, true, none,
      false, none⟩ ∧
    t.bus = ⟨[], [], none, false, false, 0, 0, none⟩ ∧ t.faults = ⟨[], false⟩ ∧
    t.alarm = ⟨false, .level, none, false⟩ ∧ t.resp = ⟨none, ⟨0, 0, 0, 0, 0, 0, 0, 0, 0, 0, 0⟩⟩)

/-- R17: the roster after reset, and a peer that is not heard has no silence measure that could expire. -/
def Obligations.RosterAfterReset : Prop :=
  (∀ (a : Addr) (high : Bool) (s : State), Completes (.reset a high) s (fun t =>
    ∀ o, t.rosterOf o = ⟨false, none, false, none, none, none, none, none⟩)) ∧
  ∀ (o : Station) (s : State), (s.rosterOf o).heard = false → exec (.silenceExpiry o) s = .next s

/-- A valid image at an address of 0 to 13 takes a station in LOADING, whatever time has passed, to LISTEN: timers,
first ROLL, and the found-running check of every pump. -/
def Obligations.ValidImageEntersListen : Prop :=
  ∀ (image : List Byte) (s : State) (o : Station) (im : Image),
    s.ctl.mode = .loading → s.LoadingInv → Addr.station? s.loader.address = some o → im = parseImage image →
    imageValid image s.loader.address = true →
    CompletesSettled (.imageReadComplete image) s (fun v =>
      v.now = s.now ∧ v.field = s.field ∧ v.ctl = ⟨.listen, some s.now, false, false, none⟩ ∧
      v.loader = ⟨s.loader.address, s.loader.polarity, some im, some (imageDigest image)⟩ ∧
      v.bus.rollTimer = some s.now ∧ v.bus.window = 0 ∧ v.waiting .roll ∧ v.levels.a.sampleTimer = some s.now ∧
      v.levels.b.sampleTimer = (if im.localSource = true then some s.now else none) ∧
      v.levels.allowance = some s.now ∧ v.alarm.mode = im.alarm ∧
      (∀ r ∈ v.faults.records, r.key.kind = .overBudget ∨
        ∃ p, im.present p = true ∧ s.overload p = true ∧ r.key = v.pumpKey .overload p) ∧
      ∀ p : Pump,
        (im.present p = false → v.chan p = .reset ∧ v.entry o p = none) ∧
        (im.present p = true → s.feedback p = true → s.auto p = true →
          (v.chan p).state = .stopping ∧ (v.chan p).claim = some ⟨2, 0#8, false, false⟩ ∧
          (v.chan p).stopReason = some .stopped ∧ (v.chan p).stopConfirm = some s.now ∧
          v.entry o p = some ⟨o, p, im.main p, im.load p, 2, .running, 0#8, false, false, false⟩) ∧
        (im.present p = true → s.feedback p = true → s.auto p = false →
          (v.chan p).state = .localRun ∧ (v.chan p).claim = some ⟨1, 0#8, true, false⟩ ∧
          v.waiting (.run ⟨p, im.main p, im.load p, 1, 0#8, true, false⟩) ∧ v.entry o p = none) ∧
        (im.present p = true → s.feedback p = false →
          (v.chan p).state = v.availableState p ∧ (v.chan p).claim = none ∧ v.entry o p = none) ∧
        (im.present p = true → s.overload p = true → v.faults.shows (v.pumpKey .overload p)))

/-- An invalid image, or a strapped address of 14 or 15, takes a station in LOADING, whatever time has passed, to HALTED
with CONFIG_IMAGE recorded at its uptime and the alarm line driven unless MUTE is asserted; nothing else happens. In
another mode no image is read (the model's choice, log 2). -/
def Obligations.UnfitImageHalts : Prop :=
  ∀ (image : List Byte) (s : State),
    (s.ctl.mode ≠ .loading → exec (.imageReadComplete image) s = .next s) ∧
    (s.ctl.mode = .loading → s.LoadingInv →
      imageValid image s.loader.address = false ∨ Addr.station? s.loader.address = none →
      exec (.imageReadComplete image) s = .next
        { s with
          loader := ⟨s.loader.address, s.loader.polarity, some (parseImage image), some (imageDigest image)⟩
          ctl := ⟨.halted, none, false, false, none⟩
          faults := ⟨[⟨⟨.configImage, none, none, none⟩, min (s.now / 1000) 65535, 1, true, false⟩], false⟩
          alarm := ⟨!s.field.mute, .level, none, false⟩ })

/-! ## The Contour bus -/

/-- At a bus idle the head of the queue is offered: it begins, an ANSWER emptying the slot, unless another offered
telegram is lower, which counts an arbitration loss; a station with nothing to offer does nothing. That a bus idle met
while an own telegram is on the bus or its slot is open, which cannot occur, does nothing is the model's choice
(log 2); that the others' offers are operands is log 13. -/
def Obligations.BusIdleOffersHead : Prop :=
  ∀ (others : List (List Byte)) (s : State),
    ((s.bus.onBus.isSome = true ∨ s.bus.slotOpen = true ∨ s.bus.queue = []) →
      exec (.busIdleArbitration others) s = .next s) ∧
    ∀ (x : Telegram) (rest : List Telegram) (tel : Sent),
      s.bus.onBus = none → s.bus.slotOpen = false → s.bus.queue = x :: rest → s.build x = some tel →
      ((∃ o ∈ others, bytesBelow o (tel.bytes s.loader.address) = true) →
        exec (.busIdleArbitration others) s = .next
          { s with resp := { s.resp with counters := { s.resp.counters with
              arbitrationLosses := min (s.resp.counters.arbitrationLosses + 1) 65535 } } }) ∧
      ((∀ o ∈ others, bytesBelow o (tel.bytes s.loader.address) = false) →
        exec (.busIdleArbitration others) s = .next
          { s with bus := { s.bus with queue := rest, onBus := some tel }
                   resp := { s.resp with slot := if x = .answer then none else s.resp.slot } })

/-- The body of a ROLL states the station at the moment it begins, and lists its claims in pump order. An ANSWER is
built from the slot: STATION, CHANNELS, FAULTS and COUNTERS state the whole of their subject, CLAIMS pages the table
by six, its entries byte by byte, and ROSTER the stations by seven. That bit 0 of a flags byte is its least
significant bit is presumed (log 30). -/
def Obligations.BodiesStateTheStation : Prop :=
  ∀ s : State,
    (∃ b, s.build .roll = some (.roll b) ∧ b.hold = s.ctl.hold ∧
      (s.ctl.mode = .listen → b.mode = .listen) ∧ (s.ctl.mode = .active → b.mode = .active) ∧
      (s.ctl.mode = .isolated → b.mode = .isolated) ∧ (∀ d, s.loader.digest = some d → b.digest = d) ∧
      (∀ n, s.levels.a.output = some n → b.suction = .cm n) ∧
      (s.levels.a.output = none → b.suction = .invalid) ∧
      (s.img.localSource = false → b.delivery = none) ∧
      (s.img.localSource = true → ∀ n, s.levels.b.output = some n → b.delivery = some (.cm n)) ∧
      (s.img.localSource = true → s.levels.b.output = none → b.delivery = some .invalid) ∧
      (b.claims.map Descriptor.pump).Pairwise (· < ·) ∧
      ∀ x : Descriptor, x ∈ b.claims ↔ ∃ d, (s.chan x.pump).claim = some d ∧
        x = ⟨x.pump, s.img.main x.pump, s.img.load x.pump, d.cls, x.state, d.bid, d.manual, d.island⟩ ∧
        ((x.state = .held ∧ (s.chan x.pump).state = .contending) ∨
         (x.state = .starting ∧ (s.chan x.pump).state = .starting) ∨
         (x.state = .running ∧ ((s.chan x.pump).state = .running ∨ (s.chan x.pump).state = .stopping ∨
           (s.chan x.pump).state = .stopFailed ∨ (s.chan x.pump).state = .tripped ∨
           (s.chan x.pump).state = .localRun)))) ∧
    (∀ a, s.resp.slot = some a →
      s.build .answer = some (.answer ⟨a.asker, a.topic, a.index, s.content a.topic a.index⟩)) ∧
    (∀ (i : Byte) (n k : Nat), n = s.claims.entries.length → k = min 6 (n - i.toNat) →
      (s.content .claims i).length = 2 + 8 * k ∧ (s.content .claims i)[0]? = some (byte n) ∧
      (s.content .claims i)[1]? = some (if i.toNat + k < n then byte (i.toNat + k) else 255#8) ∧
      (s.content .claims i).drop 2
        = (((s.claims.entries.drop i.toNat).take 6).map Entry.bytes).flatten ∧
      ∀ (j : Nat) (e : Entry), ((s.claims.entries.drop i.toNat).take 6)[j]? = some e →
        EntryStated (((s.content .claims i).drop (2 + 8 * j)).take 8) e) ∧
    ∀ i : Byte,
      StationStated (s.content .station i) s ∧
      ((s.content .channels i).length = 48 ∧
        ∀ p : Pump, ChannelStated (((s.content .channels i).drop (8 * p.val)).take 8) s p) ∧
      ((s.content .faults i).length = 1 + 6 * s.faults.records.length ∧
        (s.faults.records.length ≤ 8 → (s.content .faults i)[0]? = some (byte s.faults.records.length)) ∧
        ∀ (j : Nat) (r : FaultRecord), s.faults.records[j]? = some r →
          FaultStated (((s.content .faults i).drop (1 + 6 * j)).take 6) r) ∧
      ((s.content .counters i).length = 22 ∧
        ∀ j n : Nat, s.resp.counters.inOrder[j]? = some n → n ≤ 65535 →
          valueOf (((s.content .counters i).drop (2 * j)).take 2) = n) ∧
      ((s.content .roster i).length = 1 + 8 * min 7 (14 - i.toNat) ∧
        (s.content .roster i)[0]? = some (if i.toNat + 7 < 14 then byte (i.toNat + 7) else 255#8) ∧
        ∀ a : Station, i.toNat ≤ a.val → a.val < i.toNat + 7 →
          RosterStated (((s.content .roster i).drop (1 + 8 * (a.val - i.toNat))).take 8) a (s.rosterOf a))

/-- The carriage of an own telegram: it leaves the bus, its slot opens, this station does not signal in it, it is
counted (a BID among the bids sent too), it is heard, and the held telegrams leave the hold. A ROLL fills the own
record. The records of the kinds that the telegram does not report, and of other peers, stay. An own ROLL or ANSWER
leaves the entries of the table as they are, in ISOLATED until an island start of the same step; an own VETO acts as
anyone's. That a BID which its
withdrawn channel no longer acts on is counted among the bids sent too is the model's reading of R190 (log 29). That a
carriage with no own telegram on the bus, which cannot occur, does nothing is the model's choice (log 2). -/
def Obligations.OwnTelegramCarried : Prop :=
  ∀ s : State, (s.bus.onBus = none → exec .telegramCarried s = .next s) ∧
    ∀ (tel : Sent) (o : Station), s.bus.onBus = some tel → Addr.station? s.loader.address = some o →
      Completes .telegramCarried s (fun t =>
        t.now = s.now ∧ t.field = s.field ∧ t.loader = s.loader ∧ t.ctl.mode = s.ctl.mode ∧
        t.levels.a = s.levels.a ∧ t.levels.b = s.levels.b ∧ t.bus.unacked = s.bus.unacked ∧
        t.bus.window = s.bus.window ∧ t.bus.rollTimer = s.bus.rollTimer ∧
        ((∀ r, tel ≠ .run r) → t.claims.settle = s.claims.settle) ∧
        t.bus.onBus = none ∧ t.bus.slotOpen = true ∧ t.bus.ackSignal = false ∧ t.bus.held = [] ∧
        t.resp.counters.carried = min (s.resp.counters.carried + 1) 65535 ∧
        ((∃ c, tel = .bid c) → t.resp.counters.bidsSent = min (s.resp.counters.bidsSent + 1) 65535) ∧
        ((∀ c, tel ≠ .bid c) → t.resp.counters.bidsSent = s.resp.counters.bidsSent) ∧
        (t.rosterOf o).heard = true ∧ (t.rosterOf o).lastHeard = some s.now ∧ (t.rosterOf o).silent = false ∧
        (∀ b, tel = .roll b →
          t.rosterOf o = ⟨true, some s.now, false, some b.mode, some b.hold, some b.digest, some b.suction,
            b.delivery⟩) ∧
        RecordsStay (fun k => k.kind ∈ sentKinds tel ∧
          (k.peer = some s.loader.address ∨ k.peer = none ∨ k.kind = .digestMismatch)) s t ∧
        ((∃ b, tel = .roll b) ∨ (∃ b, tel = .answer b) → (s.rosterOf o).silent = false → s.ctl.mode ≠ .isolated →
          t.claims.entries = s.claims.entries)) ∧
      ((∃ b, tel = .roll b) ∨ (∃ b, tel = .answer b) → (s.rosterOf o).silent = false →
        CompletesCarried s (fun v => v.claims.entries = s.claims.entries)) ∧
      ∀ f, tel = .veto f → CompletesCarried s (VetoActs s.loader.address f (s.carrying tel))

/-- A judging bidder on its own BID: admitted, the claim is HELD in its table and the channel contests; refused, the
channel is back in QUEUED with the retry hold set, the bid is counted as vetoed, and the VETO waits. Where the channel is
no longer in BIDDING for that bid, it takes no action and nothing is counted as vetoed; the table acts all the same. -/
def Obligations.OwnBidJudged : Prop :=
  (∀ (c : ClaimFields) (d : ClaimDesc) (s u : State),
    s.bus.onBus = some (.bid c) → s.bus.Wf → s.OrphanInv → (s.chan c.pump).state = .bidding →
    (s.chan c.pump).claim = some d → d.bid = c.bid → s.bus.waits (Telegram.isBidOf c.pump) = false →
    u = s.carrying (.bid c) → u.judging = true →
    (u.judge s.own c = none → CompletesCarried s (fun v =>
      v.chan c.pump = { s.chan c.pump with state := .contending, runLine := false, contest := some s.now } ∧
      v.entry s.own c.pump
        = some ⟨s.own, c.pump, c.main, c.load, c.cls, .held, c.bid, false, false, false⟩)) ∧
    (∀ r, u.judge s.own c = some r → CompletesCarried s (fun v =>
      v.chan c.pump = { s.chan c.pump with state := .queued, runLine := false, claim := none, contest := none } ∧
      v.request c.pump = (s.request c.pump).map (fun q => { q with hold := some s.now }) ∧
      v.resp.counters.bidsVetoed = min (s.resp.counters.bidsVetoed + 1) 65535 ∧
      v.waiting (.veto ⟨s.own, c.pump, c.bid, r⟩) ∧ v.claims.entries = s.claims.entries))) ∧
  ∀ (c : ClaimFields) (s u : State),
    s.bus.onBus = some (.bid c) → s.OrphanInv →
    ((s.chan c.pump).state = .bidding → ∀ d, (s.chan c.pump).claim = some d → d.bid ≠ c.bid) →
    u = s.carrying (.bid c) →
    CompletesCarried s (fun v =>
      v.resp.counters.bidsVetoed = s.resp.counters.bidsVetoed ∧
      ((u.judging = true ∧ u.judge s.own c = none) ∨
          (u.judging = false ∧ s.entry s.own c.pump = none ∧ s.hasRoom = true) →
        v.entry s.own c.pump
          = some ⟨s.own, c.pump, c.main, c.load, c.cls, .held, c.bid, false, false, false⟩ ∧
        (∀ a p, (a, p) ≠ (s.own, c.pump) → v.entry a p = s.entry a p) ∧ v.pumps = s.pumps ∧
        v.sched.request = s.sched.request ∧ v.bus = u.bus) ∧
      (∀ r, u.judging = true → u.judge s.own c = some r → v.claims.entries = s.claims.entries ∧
        (u.roomy → v.waiting (.veto ⟨s.own, c.pump, c.bid, r⟩) ∧ v.pumps = s.pumps) ∧
        ((s.chan c.pump).state ≠ .bidding → v.chan c.pump = s.chan c.pump) ∧ v.sched.request = s.sched.request) ∧
      (u.judging = false → (s.entry s.own c.pump).isSome = true ∨ s.hasRoom = false →
        v.claims.entries = s.claims.entries ∧ v.pumps = s.pumps ∧ v.sched.request = s.sched.request))

/-- The own COMMIT of a contested bid: the entry is STARTING, the commit is counted, the request goes, the run line is
asserted and the start-confirm timer starts; FEEDBACK already present confirms the start at once where OVERLOAD is
released. Of a channel that is no longer CONTENDING under its bid number, the own COMMIT leaves it, its run line and
its request as they are and counts no commit, while the table acts as at every station. At a shed stop that the change
of the table leads to, a channel in BIDDING is said to stay where FEEDBACK is asserted in every RUNNING channel
(FeedbackInv). That with OVERLOAD asserted too the start is not confirmed, and the channel is left in STARTING to
trip, is the model's reading (log 12). -/
def Obligations.OwnCommitStarts : Prop :=
  (∀ (c : ClaimFields) (d : ClaimDesc) (e : Entry) (s : State),
    s.bus.onBus = some (.commit c) → s.OrphanInv → (s.chan c.pump).state = .contending →
    (s.chan c.pump).claim = some d → d.bid = c.bid → s.entry s.own c.pump = some e → e.bid = c.bid →
    e.state = .held →
    CompletesCarried s (fun v =>
      v.entry s.own c.pump = some { e with state := .starting } ∧
      v.resp.counters.commits = min (s.resp.counters.commits + 1) 65535 ∧ v.request c.pump = none ∧
      (s.feedback c.pump = false ∨ s.overload c.pump = true →
        v.chan c.pump = { s.chan c.pump with state := .starting, runLine := true, contest := none,
                                             startConfirm := some s.now } ∧ v.levels.freeze = .frozen) ∧
      (s.feedback c.pump = true → s.overload c.pump = false →
        (v.chan c.pump).lastStart = some 0 ∧ (v.chan c.pump).claim = some d ∧
        (((v.chan c.pump).state = .running ∧ (v.chan c.pump).runLine = true) ∨
         ((v.chan c.pump).state = .stopping ∧ (v.chan c.pump).runLine = false))))) ∧
  ∀ (c : ClaimFields) (s u : State),
    s.bus.onBus = some (.commit c) → s.OrphanInv →
    ((s.chan c.pump).state = .contending → ∀ d, (s.chan c.pump).claim = some d → d.bid ≠ c.bid) →
    u = s.carrying (.commit c) →
    CompletesCarried s (fun v =>
      v.resp.counters.commits = s.resp.counters.commits ∧ v.sched.request = s.sched.request ∧ HandedOn u v ∧
      (∀ a p, (a, p) ≠ (s.own, c.pump) → v.entry a p = s.entry a p) ∧
      (∀ e, s.entry s.own c.pump = some e →
        (e.bid = c.bid → v.pumps = s.pumps ∧ v.levels = s.levels ∧
          v.entry s.own c.pump = some (if e.state = .held then { e with state := .starting } else e)) ∧
        (e.bid ≠ c.bid → v.entry s.own c.pump
          = some ⟨s.own, c.pump, c.main, c.load, c.cls, .starting, c.bid, false, false, e.orphan⟩)) ∧
      (s.entry s.own c.pump = none → s.hasRoom = true → v.entry s.own c.pump
        = some ⟨s.own, c.pump, c.main, c.load, c.cls, .starting, c.bid, false, false, false⟩) ∧
      (s.entry s.own c.pump = none → s.hasRoom = false → v.claims.entries = s.claims.entries ∧ v.pumps = s.pumps))

/-- The own RUN and DROP act on the own table as anyone's: the RUN leaves a RUNNING entry and the settle time, the DROP
no entry; both clear every retry hold. A RUN that completes the return from hand control takes its channel out of
LOCAL_RUN with a class-2 claim, whatever OVERLOAD is: that under an asserted OVERLOAD the return comes before the trip is
the model's reading (log 12). -/
def Obligations.OwnRunAndDropAct : Prop :=
  (∀ (r : RunFields) (s : State), s.bus.onBus = some (.run r) → s.OrphanInv →
    CompletesCarried s (fun v =>
      v.claims.settle[r.main] = some s.now ∧ (∀ p q, v.request p = some q → q.hold = none) ∧
      (((s.entry s.own r.pump).isSome = true ∨ s.hasRoom = true) →
        v.entry s.own r.pump
          = some ⟨s.own, r.pump, r.main, r.load, r.cls, .running, r.bid, r.manual, r.island, false⟩ ∧
        ∀ d, (s.chan r.pump).state = .localRun → (s.chan r.pump).claim = some d → s.auto r.pump = true →
          s.feedback r.pump = true → s.bus.waits (Telegram.isRunOf r.pump) = false →
          s.bus.held.any (Telegram.isRunOf r.pump) = false →
          (v.chan r.pump).claim = some ⟨2, d.bid, false, false⟩ ∧
          ((v.chan r.pump).state = .running ∨ (v.chan r.pump).state = .stopping)))) ∧
  ∀ (d : DropFields) (s : State), s.bus.onBus = some (.drop d) → s.OrphanInv →
    CompletesCarried s (fun v =>
      v.entry s.own d.pump = none ∧ (∀ o p, (o, p) ≠ (s.own, d.pump) → v.entry o p = s.entry o p) ∧
      ∀ p q, v.request p = some q → q.hold = none)

/-- The end of the acknowledge slot of an own telegram: an acknowledgement clears the count and lets an ISOLATED
station listen again, which ends the ISOLATED condition; the third unacknowledged telegram in a row, or a later one,
isolates an ACTIVE station: ISOLATED is recorded, a pick event is taken, the waiting VETOs go, and its bids are
withdrawn, the BID or COMMIT gone from the queue and the DROP (WITHDRAWN) waiting (of a BID where one channel alone
contests, OneContestInv, which every step keeps: StepKeepsStartDiscipline; or its channel has one BID), while the
other telegrams stay waiting (the ROLL and the ANSWER by log 25). That a slot end with no own slot open, which cannot
occur, does nothing is the model's choice (log 2). -/
def Obligations.SlotEndActsOnTheMode : Prop :=
  ∀ s : State,
    (∀ b, s.bus.slotOpen = false → exec (.acknowledgeSlotEnd b) s = .next s) ∧
    (s.bus.slotOpen = true → CompletesSettled (.acknowledgeSlotEnd true) s (fun v =>
      v.bus.slotOpen = false ∧ v.bus.unacked = 0 ∧ v.resp.counters = s.resp.counters ∧
      (s.ctl.mode = .listen → v.ctl = { s.ctl with ackMark := true }) ∧
      (s.ctl.mode = .isolated →
        v.ctl = { s.ctl with mode := .listen, listenTimer := some s.now, ackMark := false } ∧
        FaultFile.Ends ⟨.isolated, none, none, none⟩ s.faults v.faults ∧ AlarmFollows s v) ∧
      (s.ctl.mode = .active → v.ctl = s.ctl))) ∧
    (s.bus.slotOpen = true → CompletesSettled (.acknowledgeSlotEnd false) s (fun v =>
      v.bus.slotOpen = false ∧ v.bus.unacked = min (s.bus.unacked + 1) 3 ∧
      v.resp.counters.unacked = min (s.resp.counters.unacked + 1) 65535 ∧
      (s.ctl.mode ≠ .active ∨ s.bus.unacked < 2 → v.ctl = s.ctl ∧ v.pumps = s.pumps) ∧
      (s.ctl.mode = .active → 2 ≤ s.bus.unacked →
        v.ctl = { s.ctl with mode := .isolated, listenTimer := none } ∧
        FaultFile.Takes true ⟨.isolated, none, none, none⟩ (s.now / 1000) s.faults v.faults ∧ AlarmFollows s v ∧
        v.faults.shows ⟨.isolated, none, none, none⟩ ∧
        (∀ t ∈ v.bus.queue, t.isVeto = false) ∧ v.sched.pickDue = true ∧
        Withdraws s.OneContestInv True s v ∧
        ∀ p, (v.chan p).state.inContest = false ∧
          ((s.chan p).state.inContest = true → (v.chan p).state = .queued ∧ (v.chan p).claim = none))))

/-- A failed check counts, is not acknowledged, and the sixteenth of a window is reported, with the alarm line
following: the onset of the pending alarm drives it, in PULSE with the pulse timer started, or is held under MUTE.
With the receiver off a failed check is nothing. What any report and any end leave in any file: a report that finds
its key counts, a new one is appended or lost to a full file, and an end lets the record go or stand no longer. -/
def Obligations.CheckFailureCounts : Prop :=
  (∀ (f : FaultFile) (standing : Bool) (key : FaultKey) (n : Nat),
    FaultFile.Takes standing key n f (f.take standing key n) ∧ FaultFile.Ends key f (f.finish key)) ∧
  ∀ s : State,
    (s.receiverOn = false → exec .checkFailed s = .next s) ∧
    (s.receiverOn = true → Completes .checkFailed s (fun t =>
      t.bus = { s.bus with ackSignal := false, window := t.bus.window } ∧
      t.resp = { s.resp with counters := { s.resp.counters with
        checkFailures := min (s.resp.counters.checkFailures + 1) 65535 } } ∧
      t = { s with bus := t.bus, resp := t.resp, faults := t.faults, alarm := t.alarm } ∧
      (s.bus.window < 16 → t.bus.window = s.bus.window + 1) ∧ (16 ≤ s.bus.window → t.bus.window = s.bus.window) ∧
      (s.bus.window = 15 → t.faults.shows ⟨.checkErrors, none, none, none⟩ ∧
        FaultFile.Takes false ⟨.checkErrors, none, none, none⟩ (s.now / 1000) s.faults t.faults ∧
        AlarmFollows s t) ∧
      (s.bus.window ≠ 15 → t.faults = s.faults ∧ t.alarm = s.alarm)))

/-! ## Receptions -/

/-- Every valid telegram of another station is counted, acknowledged in the slot, and heard: its sender's record is
heard, has the present moment and is not silent; of a well-formed ROLL it then holds all that the ROLL states. With the
receiver off it is nothing. -/
def Obligations.ReceptionsCountedAndHeard : Prop :=
  ∀ (c : Instr) (src : Addr) (s : State), receptionSource c = some src →
    (s.receiverOn = false → exec c s = .next s) ∧
    (s.receiverOn = true → Completes c s (fun t =>
      t.resp.counters.receivedValid = min (s.resp.counters.receivedValid + 1) 65535 ∧ t.bus.ackSignal = true ∧
      ∀ o, Addr.station? src = some o →
        (t.rosterOf o).heard = true ∧ (t.rosterOf o).lastHeard = some s.now ∧ (t.rosterOf o).silent = false ∧
        ∀ body b, c = .rollReceived src body → decodeRoll body = some b →
          t.rosterOf o = ⟨true, some s.now, false, some b.mode, some b.hold, some b.digest, some b.suction,
            b.delivery⟩))

/-- On a station at rest, from a sender that is not silent: an ANSWER, a telegram of no kind, a telegram that is not
well formed, a claim telegram or a ROLL from a service station, and an order or an ASK that names another target, are
counted and heard and do nothing else. That such a RUN or DROP clears no retry hold is the model's reading of R26 and R95
(log 9). -/
def Obligations.ReceptionsIgnored : Prop :=
  ∀ (src : Addr) (body : List Byte) (s t : State),
    s.receiverOn = true → s.Quiet → s.audible src → t = s.heardFrom src →
    exec (.answerReceived src body) s = .next t ∧
    (∀ pr va, exec (.unknownKindReceived pr va src body) s = .next t) ∧
    (decodeClaim body = none ∨ Addr.station? src = none →
      exec (.bidReceived src body) s = .next t ∧ exec (.commitReceived src body) s = .next t) ∧
    (decodeVeto body = none ∨ Addr.station? src = none → exec (.vetoReceived src body) s = .next t) ∧
    (decodeRun body = none ∨ Addr.station? src = none → exec (.runReceived src body) s = .next t) ∧
    (decodeDrop body = none ∨ Addr.station? src = none → exec (.dropReceived src body) s = .next t) ∧
    (decodeRoll body = none ∨ Addr.station? src = none → exec (.rollReceived src body) s = .next t) ∧
    ((∀ f, decodeAsk body = some f → s.addressed f.target = false) → exec (.askReceived src body) s = .next t) ∧
    ((∀ f, decodeOrder body = some f → s.addressed f.target = false) →
      exec (.holdReceived src body) s = .next t ∧ exec (.freeReceived src body) s = .next t ∧
      exec (.clearReceived src body) s = .next t) ∧
    ((∀ f, decodeShed body = some f → s.addressed f.target.1 = false) →
      exec (.shedReceived src body) s = .next t) ∧
    (decodePurge body = none → exec (.purgeReceived src body) s = .next t)

/-! ## Admission, the claim table and shedding -/

/-- R28: a judging station tests the six conditions in their order on the table before the bid; the first that holds
refuses the bid for its reason, and if none holds the bid is admitted. Membership is Image.member, whichever bit
of the image it reads (log 30). -/
def Obligations.RefusalTestsInOrder : Prop :=
  ∀ (src : Addr) (o : Station) (body : List Byte) (c : ClaimFields) (s u : State)
    (dup mem busy budget reserve full : Prop),
    s.receiverOn = true → Addr.station? src = some o → decodeClaim body = some c → u = s.accept src →
    u.judging = true →
    (dup ↔ ∃ e ∈ u.claims.entries, e.owner = o ∧ e.pump = c.pump) →
    (mem ↔ u.img.member c.main o = false) →
    (busy ↔ ∃ e ∈ u.claims.entries, e.main = c.main ∧ (e.state = .held ∨ e.state = .starting)) →
    (budget ↔ u.img.cap < (u.claims.entries.map Entry.load).sum + c.load) →
    (reserve ↔ c.cls ≠ 0 ∧ u.img.cap - u.img.reserve < (u.claims.entries.map Entry.load).sum + c.load) →
    (full ↔ 48 ≤ u.claims.entries.length) →
    (dup → BidRefused src o body c .duplicate s u) ∧
    (¬dup → mem → BidRefused src o body c .membership s u) ∧
    (¬dup → ¬mem → busy → BidRefused src o body c .mainBusy s u) ∧
    (¬dup → ¬mem → ¬busy → budget → BidRefused src o body c .budget s u) ∧
    (¬dup → ¬mem → ¬busy → ¬budget → reserve → BidRefused src o body c .reserve s u) ∧
    (¬dup → ¬mem → ¬busy → ¬budget → ¬reserve → full → BidRefused src o body c .tableFull s u) ∧
    (¬dup → ¬mem → ¬busy → ¬budget → ¬reserve → ¬full → BidAdmitted src o body c s)

/-- A BID that a judging station admits, or that a learning station without an entry for it has room for, becomes a
HELD entry; nothing else of the table changes, no telegram is queued, no MEMBERSHIP is recorded, and OVER_BUDGET follows
the counted load. A learning station keeps the entry it has,
and on a full table records TABLE_FULL. -/
def Obligations.BidBecomesHeldEntry : Prop :=
  ∀ (src : Addr) (o : Station) (body : List Byte) (c : ClaimFields) (s u : State),
    s.receiverOn = true → Addr.station? src = some o → decodeClaim body = some c → u = s.accept src →
    ((u.judging = true ∧ u.judge o c = none) ∨
      (u.judging = false ∧ u.entry o c.pump = none ∧ u.hasRoom = true) →
      CompletesSettled (.bidReceived src body) s (fun v =>
        v.entry o c.pump = some ⟨o, c.pump, c.main, c.load, c.cls, .held, c.bid, false, false, false⟩ ∧
        (∀ a p, (a, p) ≠ (o, c.pump) → v.entry a p = u.entry a p) ∧ v.bus = u.bus ∧ v.pumps = u.pumps ∧
        u.faults.keepsKind .membership v.faults ∧ HandedOn u v)) ∧
    (u.judging = false → (u.entry o c.pump).isSome = true →
      CompletesSettled (.bidReceived src body) s (fun v => v = u)) ∧
    (u.judging = false → u.entry o c.pump = none → u.hasRoom = false →
      CompletesSettled (.bidReceived src body) s (fun v =>
        v.claims.entries = u.claims.entries ∧ v.claims.full = true ∧
        FaultFile.Takes true ⟨.tableFull, none, none, none⟩ (s.now / 1000) u.faults v.faults ∧
        v.faults.shows ⟨.tableFull, none, none, none⟩ ∧ v.bus = u.bus ∧ v.pumps = u.pumps))

/-- A BID that a judging station refuses creates no entry; its VETO waits, naming owner, pump, bid number and reason;
MEMBERSHIP and TABLE_FULL are recorded. -/
def Obligations.BidRefusedQueuesVeto : Prop :=
  ∀ (src : Addr) (o : Station) (body : List Byte) (c : ClaimFields) (r : RefusalReason) (s u : State),
    s.receiverOn = true → Addr.station? src = some o → decodeClaim body = some c → u = s.accept src →
    u.judging = true → u.judge o c = some r → u.roomy →
    CompletesSettled (.bidReceived src body) s (fun v =>
      v.claims.entries = u.claims.entries ∧ v.waiting (.veto ⟨o, c.pump, c.bid, r⟩) ∧
      (r = .membership → v.faults.shows ⟨.membership, none, some src, some c.main⟩ ∧
        FaultFile.Takes false ⟨.membership, none, some src, some c.main⟩ (s.now / 1000) u.faults v.faults) ∧
      (r = .tableFull → v.faults.shows ⟨.tableFull, none, none, none⟩ ∧ v.claims.full = true ∧
        FaultFile.Takes true ⟨.tableFull, none, none, none⟩ (s.now / 1000) u.faults v.faults) ∧
      (r ≠ .membership → r ≠ .tableFull → v.faults = u.faults))

/-- A VETO removes the HELD entry of its owner, pump and bid number, and is too late for a STARTING or RUNNING one,
which its owner, and no other station, records; it takes this station's own VETOs for the bid off the queue and ends
an own contest. The removal is handed on: OVER_BUDGET and TABLE_FULL follow it, and a station still above the cap
sheds; where no own contest ends, the channels stay as at every change of the table, one in BIDDING where FEEDBACK is
asserted in every RUNNING channel (FeedbackInv, which every step keeps: StepKeepsStartDiscipline). -/
def Obligations.VetoEndsTheBid : Prop :=
  ∀ (src : Addr) (o : Station) (body : List Byte) (f : VetoFields) (s u : State),
    s.receiverOn = true → Addr.station? src = some o → decodeVeto body = some f → u = s.accept src →
    CompletesSettled (.vetoReceived src body) s (VetoActs src f u)

/-- A COMMIT takes the HELD entry of its bid to STARTING; without a matching entry it is learned as STARTING and
recorded as DIVERGENCE; on a full table TABLE_FULL is recorded and no DIVERGENCE, nor is it for an entry of its bid.
It takes this station's own VETOs for the bid off the queue. A change of the counted load is handed on: OVER_BUDGET
follows it, and above the cap a judging station stops its own RUNNING victim and chooses no other entry. The other
channels stay, one in BIDDING where FEEDBACK is asserted in every RUNNING channel (FeedbackInv, which every step
keeps: StepKeepsStartDiscipline). -/
def Obligations.CommitActsOnTable : Prop :=
  ∀ (src : Addr) (o : Station) (body : List Byte) (c : ClaimFields) (s u : State),
    s.receiverOn = true → Addr.station? src = some o → decodeClaim body = some c → u = s.accept src →
    CompletesSettled (.commitReceived src body) s (fun v =>
      (∀ t ∈ v.bus.queue, t.isVetoFor o c.pump c.bid = false) ∧
      (∀ a p, (a, p) ≠ (o, c.pump) → v.entry a p = u.entry a p) ∧
      (∀ e, u.entry o c.pump = some e →
        (e.bid = c.bid → e.state = .held → v.entry o c.pump = some { e with state := .starting }) ∧
        (e.bid = c.bid → e.state ≠ .held → v.entry o c.pump = some e) ∧
        (e.bid = c.bid → u.faults.keepsKind .divergence v.faults) ∧
        (e.bid ≠ c.bid →
          v.entry o c.pump = some ⟨o, c.pump, c.main, c.load, c.cls, .starting, c.bid, false, false, e.orphan⟩ ∧
          v.faults.shows ⟨.divergence, none, some src, none⟩)) ∧
      (u.entry o c.pump = none → u.hasRoom = true →
        v.entry o c.pump = some ⟨o, c.pump, c.main, c.load, c.cls, .starting, c.bid, false, false, false⟩ ∧
        v.faults.shows ⟨.divergence, none, some src, none⟩) ∧
      (u.entry o c.pump = none → u.hasRoom = false →
        v.claims.entries = u.claims.entries ∧ v.claims.full = true ∧
        v.faults.shows ⟨.tableFull, none, none, none⟩ ∧
        FaultFile.Takes true ⟨.tableFull, none, none, none⟩ (s.now / 1000) u.faults v.faults ∧
        u.faults.keepsKind .divergence v.faults) ∧
      HandedOn u v)

/-- A RUN leaves a RUNNING entry with its fields, sets the settle time of its main, and clears every retry hold.
DIVERGENCE is recorded for an entry that was HELD, and, unless the RUN is manual, for one of another bid number and
for a missing one, and in no other case; on a full table TABLE_FULL is recorded and no DIVERGENCE. A change of the
counted load is handed on: OVER_BUDGET follows it, and above the cap a judging station stops its own RUNNING victim
and chooses no other entry. The other channels stay, one in BIDDING where FEEDBACK is asserted in every RUNNING
channel (FeedbackInv, which every step keeps: StepKeepsStartDiscipline). -/
def Obligations.RunActsOnTable : Prop :=
  ∀ (src : Addr) (o : Station) (body : List Byte) (r : RunFields) (s u : State),
    s.receiverOn = true → Addr.station? src = some o → decodeRun body = some r → u = s.accept src →
    CompletesSettled (.runReceived src body) s (fun v =>
      v.claims.settle[r.main] = some s.now ∧ (∀ m, m ≠ r.main → v.claims.settle[m] = u.claims.settle[m]) ∧
      (∀ p q, v.request p = some q → q.hold = none) ∧
      (∀ a p, (a, p) ≠ (o, r.pump) → v.entry a p = u.entry a p) ∧
      (∀ e, u.entry o r.pump = some e →
        v.entry o r.pump
          = some ⟨o, r.pump, r.main, r.load, r.cls, .running, r.bid, r.manual, r.island, e.orphan⟩ ∧
        (e.state = .held ∨ (e.bid ≠ r.bid ∧ r.manual = false) →
          v.faults.shows ⟨.divergence, none, some src, none⟩) ∧
        (e.state ≠ .held → e.bid = r.bid ∨ r.manual = true → u.faults.keepsKind .divergence v.faults)) ∧
      (u.entry o r.pump = none → u.hasRoom = true →
        v.entry o r.pump
          = some ⟨o, r.pump, r.main, r.load, r.cls, .running, r.bid, r.manual, r.island, false⟩ ∧
        (r.manual = false → v.faults.shows ⟨.divergence, none, some src, none⟩) ∧
        (r.manual = true → u.faults.keepsKind .divergence v.faults)) ∧
      (u.entry o r.pump = none → u.hasRoom = false →
        v.claims.entries = u.claims.entries ∧ v.claims.full = true ∧
        v.faults.shows ⟨.tableFull, none, none, none⟩ ∧
        FaultFile.Takes true ⟨.tableFull, none, none, none⟩ (s.now / 1000) u.faults v.faults ∧
        u.faults.keepsKind .divergence v.faults) ∧
      HandedOn u v)

/-- A DROP removes the entry of its owner and pump, whatever its state, and clears every retry hold; the lower counted
load and a freed place are handed on, with a further shed stop while it is still above the cap. The other channels stay,
one in BIDDING where FEEDBACK is asserted in every RUNNING channel (FeedbackInv, which every step keeps:
StepKeepsStartDiscipline). -/
def Obligations.DropRemovesEntry : Prop :=
  ∀ (src : Addr) (o : Station) (body : List Byte) (d : DropFields) (s u : State),
    s.receiverOn = true → Addr.station? src = some o → decodeDrop body = some d → u = s.accept src →
    CompletesSettled (.dropReceived src body) s (fun v =>
      v.entry o d.pump = none ∧ (∀ a p, (a, p) ≠ (o, d.pump) → v.entry a p = u.entry a p) ∧
      v.claims.settle = u.claims.settle ∧ (∀ p q, v.request p = some q → q.hold = none) ∧ HandedOn u v)

/-- A ROLL fills its sender's roster record with what it states; the digest mismatch condition follows the roster, and
a remote delivery level is the suction level of the source station's ROLL. A peer's ROLL is reconciled: the table
holds for that peer exactly the claims it lists, with the fields it lists, the missing ones entered in pump order as
far as there is room and TABLE_FULL recorded for the others, and no other owner's entry changes; a change is recorded
as DIVERGENCE and handed on once, no change records no DIVERGENCE, and a judging station that it takes above the cap
stops its own RUNNING victim. A ROLL under the own address is not reconciled (the model's reading of R18, log 10).
Where a shed stop or a stale level stops a pump, a channel in BIDDING is said to stay where FEEDBACK is asserted in
every RUNNING channel (FeedbackInv), and at the start of a mismatch its BID is said to go where one channel alone
contests (OneContestInv): every step keeps both (StepKeepsStartDiscipline). There the ROLL and an ANSWER stay waiting
(log 25). -/
def Obligations.RollReconcilesTable : Prop :=
  ∀ (src : Addr) (o : Station) (body : List Byte) (b : RollBody) (s u : State),
    s.receiverOn = true → Addr.station? src = some o → decodeRoll body = some b → s.OrphanInv →
    u = s.accept src →
    CompletesSettled (.rollReceived src body) s (fun v =>
      v.rosterOf o = ⟨true, some s.now, false, some b.mode, some b.hold, some b.digest, some b.suction,
        b.delivery⟩ ∧
      (o = s.own → v.claims.entries = u.claims.entries) ∧
      (o ≠ s.own → (∀ p, (∀ d ∈ b.claims, d.pump ≠ p) → v.entry o p = none) ∧
      (∀ d ∈ b.claims, (u.entry o d.pump).isSome = true ∨ u.placesBefore o b.claims d.pump < 48 →
        v.entry o d.pump
          = some ⟨o, d.pump, d.main, d.load, d.cls, d.state, d.bid, d.manual, d.island, false⟩) ∧
      (∀ d ∈ b.claims, u.entry o d.pump = none → 48 ≤ u.placesBefore o b.claims d.pump →
        v.entry o d.pump = none ∧ v.claims.full = true ∧ v.faults.shows ⟨.tableFull, none, none, none⟩) ∧
      (∀ a p, a ≠ o → v.entry a p = u.entry a p) ∧ RoomFollows u v ∧
      (v.claims.entries ≠ u.claims.entries → v.faults.shows ⟨.divergence, none, some src, none⟩)) ∧
      (v.claims.entries = u.claims.entries → u.faults.keepsKind .divergence v.faults) ∧
      BudgetFollows u v ∧ MismatchFollows u.OneContestInv u v ∧
      (v.judging = true → v.loadSum ≠ u.loadSum → u.img.cap < v.loadSum →
        ∀ p, v.ownVictim p → (v.chan p).state ≠ .running) ∧
      (o ≠ s.own → (u.ctl.mismatch = none ↔ v.ctl.mismatch = none) →
        s.img.localSource = true ∨ s.img.remoteSource ≠ some o → HandedOn u v) ∧
      (∀ a, u.ctl.mismatch = some a → v.ctl.mismatch = none → u.ctl.mode = .active → u.img.cap < u.loadSum →
        v.claims.entries = u.claims.entries → s.img.localSource = true ∨ s.img.remoteSource ≠ some o →
        ShedActs u v) ∧
      (s.img.localSource = true ∨ s.img.remoteSource ≠ some o →
        v.levels.remote = u.levels.remote ∧ v.levels.blindTimer = u.levels.blindTimer ∧
        u.faults.keepsKind .remoteLevelStale v.faults) ∧
      (s.img.localSource = false → s.img.remoteSource = some o →
        (∀ n, b.suction = .cm n → v.levels.remote = some n ∧ v.sched.evalDue = true ∧
          (u.levels.remote = none → v.levels.staleUnrecorded = false ∧ v.levels.blindTimer = none ∧
            v.levels.blindReached = false ∧ v.faults.ended ⟨.remoteLevelStale, none, some src, none⟩) ∧
          ∀ p d, (u.chan p).state = .running → (u.chan p).claim = some d →
            v.mustStop p ∨ (v.mayStop p d ∧ ∀ r, (u.chan p).currentRun = some r →
              (s.img.pumps[p]).minRun * 1000 ≤ r) ∧ (u.chan p).currentRun ≠ none →
            (v.chan p).state ≠ .running) ∧
        (b.suction = .invalid → v.levels.remote = none ∧
          (u.levels.remote ≠ none → v.levels.staleUnrecorded = false ∧ v.levels.blindTimer = some s.now ∧
            v.sched.evalDue = true ∧ v.faults.shows ⟨.remoteLevelStale, none, some src, none⟩) ∧
          (u.levels.remote = none → v.levels.blindTimer = u.levels.blindTimer))))

/-! ## Service telegrams -/

/-- An addressed ASK takes the slot for its topic, index and asker, and an ANSWER waits, if one waited already or the
queue has room. -/
def Obligations.AskTakesSlot : Prop :=
  ∀ (src : Addr) (body : List Byte) (f : AskFields) (s u : State),
    s.receiverOn = true → decodeAsk body = some f → s.addressed f.target = true → u = s.accept src →
    u.roomy ∨ u.waiting .answer →
    CompletesSettled (.askReceived src body) s (fun v =>
      v.resp = { u.resp with slot := some ⟨f.topic, f.index, src⟩ } ∧ v.waiting .answer ∧
      v = { u with resp := v.resp, bus := { u.bus with queue := v.bus.queue } })

/-- HOLD sets the hold flag; FREE clears it and the service block of every channel in use: the clearing of a set flag
is a pick event, that of a set block on a channel in IDLE an evaluation event, and nothing else changes; an order
whose site code does not match does nothing but record SITE_CODE with its source. -/
def Obligations.OrdersObeyedUnderSiteCode : Prop :=
  ∀ (src : Addr) (body : List Byte) (f : OrderFields Target) (s u : State),
    s.receiverOn = true → decodeOrder body = some f → s.addressed f.target = true → u = s.accept src →
    (f.siteCode = s.img.siteCode →
      CompletesSettled (.holdReceived src body) s (fun v => v = { u with ctl := { u.ctl with hold := true } }) ∧
      CompletesSettled (.freeReceived src body) s (fun v =>
        v = { u with ctl := { u.ctl with hold := false }, pumps := { u.pumps with chan := v.pumps.chan },
                     sched := { u.sched with evalDue := v.sched.evalDue, pickDue := u.sched.pickDue || u.ctl.hold } } ∧
        (v.sched.evalDue = true ↔ u.sched.evalDue = true ∨
          ∃ p, u.inUse p = true ∧ (u.chan p).serviceBlock = true ∧ (u.chan p).state = .idle) ∧
        ∀ p, (u.inUse p = true → v.chan p = { u.chan p with serviceBlock := false }) ∧
          (u.inUse p = false → v.chan p = u.chan p))) ∧
    (f.siteCode ≠ s.img.siteCode →
      ∀ c, c = .holdReceived src body ∨ c = .freeReceived src body ∨ c = .clearReceived src body →
        CompletesSettled c s (fun v =>
          v = { u with faults := v.faults, alarm := v.alarm } ∧
          AlarmFollows u v ∧ FaultFile.Takes false ⟨.siteCode, none, some src, none⟩ (s.now / 1000) u.faults v.faults))

/-- SHED sets the service block of its channel. One that is starting or running stops for shedding and is counted; one
with a request loses it and stands in IDLE, its bid withdrawn; another channel in use stays as it is. A wrong site
code is recorded. -/
def Obligations.ShedStopsOrUnrequests : Prop :=
  ∀ (src : Addr) (body : List Byte) (f : OrderFields (Target × Pump)) (p : Pump) (s u : State),
    s.receiverOn = true → decodeShed body = some f → s.addressed f.target.1 = true → p = f.target.2 →
    u = s.accept src →
    (f.siteCode ≠ s.img.siteCode → CompletesSettled (.shedReceived src body) s (fun v =>
      v = { u with faults := v.faults, alarm := v.alarm } ∧ AlarmFollows u v ∧
      FaultFile.Takes false ⟨.siteCode, none, some src, none⟩ (s.now / 1000) u.faults v.faults)) ∧
    (f.siteCode = s.img.siteCode → u.inUse p = false →
      CompletesSettled (.shedReceived src body) s (fun v => v = u)) ∧
    (f.siteCode = s.img.siteCode → u.inUse p = true → CompletesSettled (.shedReceived src body) s (fun v =>
      (v.chan p).serviceBlock = true ∧ v.faults = u.faults ∧
      ((u.chan p).state = .starting ∨ (u.chan p).state = .running →
        v.resp.counters.sheds = min (u.resp.counters.sheds + 1) 65535 ∧ (v.chan p).runLine = false ∧
        (u.feedback p = true → (v.chan p).state = .stopping ∧ (v.chan p).stopReason = some .shed ∧
          (v.chan p).stopConfirm = some s.now ∧ (v.chan p).claim = (u.chan p).claim) ∧
        (u.feedback p = false → u.noDrop p → u.roomy →
          (v.chan p).claim = none ∧ v.waiting (.drop ⟨p, .shed⟩))) ∧
      ((u.chan p).state.requests = true →
        (v.chan p).state = .idle ∧ v.request p = none ∧
        ((u.chan p).state.inContest = true → (v.chan p).claim = none ∧
          TelegramsWithdrawn True (u.takesDrops 1) p u v)) ∧
      ((u.chan p).state.requests = false → (u.chan p).state ≠ .starting → (u.chan p).state ≠ .running →
        v.chan p = { u.chan p with serviceBlock := true } ∧ v.resp = u.resp)))

/-- R170: an acknowledgement, by ACK or by CLEAR, removes the records that do not stand, marks the others
acknowledged and clears the overflow flag; every TRIPPED channel takes the trip acknowledgement, and nothing else
changes but the alarm line. -/
def Obligations.AcknowledgementClearsFile : Prop :=
  (∀ s : State, CompletesSettled .ackRises s (fun v =>
    v.faults = ⟨(s.faults.records.filter FaultRecord.standing).map (fun r => { r with acked := true }), false⟩ ∧
    (∀ p, v.chan p = { s.chan p with tripAck := (s.chan p).tripAck || decide ((s.chan p).state = .tripped) }) ∧
    v = { s with faults := v.faults, alarm := v.alarm, pumps := { s.pumps with chan := v.pumps.chan } } ∧
    (s.alarm.mode = .level → v.alarm = { s.alarm with driven := false }) ∧
    (s.alarm.mode = .pulse → v.alarm = s.alarm))) ∧
  ∀ (src : Addr) (body : List Byte) (f : OrderFields Target) (s u : State),
    s.receiverOn = true → decodeOrder body = some f → s.addressed f.target = true → f.siteCode = s.img.siteCode →
    u = s.accept src → CompletesSettled (.clearReceived src body) s (fun v =>
      v.faults = ⟨(u.faults.records.filter FaultRecord.standing).map (fun r => { r with acked := true }), false⟩ ∧
      (∀ p, v.chan p
        = { u.chan p with tripAck := (u.chan p).tripAck || decide ((u.chan p).state = .tripped) }) ∧
      v = { u with faults := v.faults, alarm := v.alarm, pumps := { u.pumps with chan := v.pumps.chan } })

/-- PURGE with the right site code removes every entry of a silent peer, hands the change on once, and leaves its roster
record; of a subject that
is not silent here, of the station itself or of a service address it removes nothing; a wrong site code is recorded. At
a shed stop that the change leads to, a channel in BIDDING is said to stay where FEEDBACK is asserted in every RUNNING
channel (FeedbackInv, which every step keeps: StepKeepsStartDiscipline). -/
def Obligations.PurgeRemovesSilentClaims : Prop :=
  ∀ (src : Addr) (body : List Byte) (f : OrderFields Addr) (s u : State),
    s.receiverOn = true → decodePurge body = some f → u = s.accept src →
    (f.siteCode ≠ s.img.siteCode → CompletesSettled (.purgeReceived src body) s (fun v =>
      v = { u with faults := v.faults, alarm := v.alarm } ∧ AlarmFollows u v ∧
      FaultFile.Takes false ⟨.siteCode, none, some src, none⟩ (s.now / 1000) u.faults v.faults)) ∧
    (f.siteCode = s.img.siteCode →
      (∀ o, Addr.station? f.target = some o → o = s.own ∨ (u.rosterOf o).silent = false) →
      CompletesSettled (.purgeReceived src body) s (fun v => v = u)) ∧
    (∀ o, f.siteCode = s.img.siteCode → Addr.station? f.target = some o → o ≠ s.own →
      (u.rosterOf o).silent = true →
      CompletesSettled (.purgeReceived src body) s (fun v =>
        v.claims.entries = u.claims.entries.filter (fun e => e.owner ≠ o) ∧ v.claims.roster = u.claims.roster ∧
        u.faults.keepsKind .siteCode v.faults ∧ HandedOn u v))

/-! ## Timers -/

/-- The roll timer's expiry hands in a ROLL and restarts the timer and the check-error window; the listen timer's
expiry takes a LISTEN station to ACTIVE if an own telegram was acknowledged, with a shed evaluation if it is over the
cap, else to ISOLATED, which is recorded, with a pick event, the waiting VETOs gone and a bid in hand withdrawn, its
BID or COMMIT gone from the queue and its DROP (WITHDRAWN) waiting (of a BID where one channel alone contests:
OneContestInv, which every step keeps), while the other telegrams stay waiting (log 25). The silence measure of a
heard peer ends with its record silent. At that shed evaluation a channel in BIDDING is said to stay where FEEDBACK is
asserted in every RUNNING channel (FeedbackInv, which every step keeps: StepKeepsStartDiscipline). That a stopped
timer does nothing, and that an expiry taken early first lets the missing time pass, is the model's choice (log 2). -/
def Obligations.RollAndListenTimers : Prop :=
  ∀ s : State,
    (s.bus.rollTimer = none → exec .rollTimerExpiry s = .next s) ∧
    (∀ t, s.bus.rollTimer = some t → CompletesSettled .rollTimerExpiry s (fun v =>
      v.now = s.endOf t s.img.rollTime ∧ v.bus.rollTimer = some v.now ∧ v.bus.window = 0 ∧
      (s.bus.carries (fun x => decide (x = .roll)) = false → .roll ∉ s.bus.held → s.roomy ∨ s.waiting .roll →
        v.waiting .roll) ∧
      (s.bus.carries (fun x => decide (x = .roll)) = true → v.waiting .roll ∨ .roll ∈ v.bus.held))) ∧
    (s.ctl.mode ≠ .listen ∨ s.ctl.listenTimer = none → exec .listenTimerExpiry s = .next s) ∧
    (∀ t, s.ctl.mode = .listen → s.ctl.listenTimer = some t →
      CompletesSettled .listenTimerExpiry s (fun v =>
        v.now = s.endOf t (3 * s.img.rollTime) ∧ v.ctl.listenTimer = none ∧
        (s.ctl.ackMark = true → v.ctl.mode = .active ∧ v.sched.pickDue = true ∧
          v.claims.entries = s.claims.entries ∧
          (s.ctl.mismatch = none → s.img.cap < s.loadSum →
            ShedActs (s.advance (s.endOf t (3 * s.img.rollTime) - s.now)) v)) ∧
        (s.ctl.ackMark = false → v.ctl.mode = .isolated ∧ v.faults.shows ⟨.isolated, none, none, none⟩ ∧
          FaultFile.Takes true ⟨.isolated, none, none, none⟩ (v.now / 1000) s.faults v.faults ∧ AlarmFollows s v ∧
          v.sched.pickDue = true ∧ Withdraws s.OneContestInv True s v ∧
          ∀ x ∈ v.bus.queue, x.isVeto = false))) ∧
    ∀ (o : Station) (t : Nat), s.receiverOn = true → o ≠ s.own → (s.rosterOf o).heard = true →
      (s.rosterOf o).silent = false → (s.rosterOf o).lastHeard = some t →
      Completes (.silenceExpiry o) s (fun v =>
        v.now = s.endOf t (3 * s.img.rollTime) ∧ v.rosterOf o = { s.rosterOf o with silent := true } ∧
        ∀ a, a ≠ o → v.rosterOf a = s.rosterOf a)

/-- The silence of a peer that is heard and not silent: its record is marked silent, its entries take the orphan mark
and stay otherwise as they are, PEER_SILENT is recorded, a remote level from it is stale, and the digest mismatch
condition follows: it may be handed over or end, with shedding and picks resumed. The next telegram of a silent peer
un-silences it: its marks go, PEER_SILENT ends, and its digest counts again, which may start a mismatch. Where a pump
stops at that, a channel in BIDDING is said to stay where FEEDBACK is asserted in every RUNNING channel (FeedbackInv),
and at the start of a mismatch its BID is said to go where one channel alone contests (OneContestInv) and, at the
silence, that FEEDBACK is asserted: every step keeps both (StepKeepsStartDiscipline). The records of the other kinds
stay. At the start of a mismatch the ROLL and an ANSWER stay waiting (log 25). That an expiry taken early first lets
the missing time pass is the model's choice (log 2): `w` is that moment. -/
def Obligations.SilenceMarksOrphans : Prop :=
  (∀ (o : Station) (t : Nat) (s w : State),
    s.receiverOn = true → o ≠ s.own → (s.rosterOf o).heard = true → (s.rosterOf o).silent = false →
    (s.rosterOf o).lastHeard = some t → w = s.advance (s.endOf t (3 * s.img.rollTime) - s.now) →
    CompletesSettled (.silenceExpiry o) s (fun v =>
      v.now = s.endOf t (3 * s.img.rollTime) ∧ v.rosterOf o = { s.rosterOf o with silent := true } ∧
      (∀ a, a ≠ o → v.rosterOf a = s.rosterOf a) ∧
      v.claims.entries = s.claims.entries.map (fun e => if e.owner = o then { e with orphan := true } else e) ∧
      v.faults.shows ⟨.peerSilent, none, some o.addr, none⟩ ∧
      (s.img.localSource = false → s.img.remoteSource = some o → v.levels.remote = none ∧
        (s.levels.remote ≠ none → v.levels.blindTimer = some v.now ∧ v.sched.evalDue = true ∧
          v.faults.shows ⟨.remoteLevelStale, none, some o.addr, none⟩)) ∧
      MismatchFollows (w.OneContestInv ∧ w.FeedbackInv) w v ∧
      w.faults.keeps (fun k => k.kind ∉ hearingKinds ∧ k.kind ≠ .remoteLevelStale) v.faults ∧
      (s.img.localSource = true ∨ s.img.remoteSource ≠ some o →
        v.levels.remote = s.levels.remote ∧ w.faults.keepsKind .remoteLevelStale v.faults ∧
        ∀ a, s.ctl.mismatch = some a → v.ctl.mismatch = none → s.ctl.mode = .active → s.img.cap < s.loadSum →
          ShedActs w v))) ∧
  ∀ (src : Addr) (o : Station) (body : List Byte) (s : State),
    s.receiverOn = true → Addr.station? src = some o → (s.rosterOf o).silent = true →
    CompletesSettled (.answerReceived src body) s (fun v =>
      v.rosterOf o = { s.rosterOf o with heard := true, lastHeard := some s.now, silent := false } ∧
      (∀ a, a ≠ o → v.rosterOf a = s.rosterOf a) ∧
      v.claims.entries = s.claims.entries.map (fun e => if e.owner = o then { e with orphan := false } else e) ∧
      v.faults.ended ⟨.peerSilent, none, some src, none⟩ ∧ MismatchFollows s.OneContestInv s v)

/-- The end of a contest with no VETO: the COMMIT of the own HELD entry waits, and the channel stays CONTENDING. A full
queue that has nothing less urgent to give up does not take the COMMIT: the contest ends, the channel is QUEUED with its
retry hold set, a DROP (WITHDRAWN) waits where the queue can take it (it cannot only where it holds nothing to give up,
which R136 rules out, log 15), and no bid is counted as vetoed. That an expiry taken early first lets the missing time
pass is the model's choice (log 2). -/
def Obligations.ContestEndsInCommit : Prop :=
  ∀ (p : Pump) (t : Nat) (d : ClaimDesc) (e : Entry) (s : State),
    (s.chan p).state = .contending → (s.chan p).contest = some t → (s.chan p).claim = some d →
    s.entry s.own p = some e → e.bid = d.bid → e.state = .held →
    (s.roomy ∨ (∃ x ∈ s.bus.queue, x.displaceable = true ∧ 3 < x.priority) ∧ s.bus.Wf →
      CompletesSettled (.contestTimerExpiry p) s (fun v =>
        v.now = s.endOf t s.img.contestWindow ∧ v.chan p = { s.chan p with contest := none } ∧
        v.waiting (.commit ⟨p, e.main, e.load, e.cls, e.bid⟩) ∧ v.claims = s.claims)) ∧
    (16 ≤ s.bus.size → (∀ x ∈ s.bus.queue, x.displaceable = true → x.priority ≤ 3) →
      CompletesSettled (.contestTimerExpiry p) s (fun v =>
        v.now = s.endOf t s.img.contestWindow ∧
        v.chan p = { s.chan p with state := .queued, runLine := false, claim := none, contest := none } ∧
        v.request p = (s.request p).map (fun q => { q with hold := some v.now }) ∧
        v.resp.counters.bidsVetoed = s.resp.counters.bidsVetoed ∧ v.claims = s.claims ∧
        (s.resp.counters.displaced < 65535 → s.resp.counters.displaced < v.resp.counters.displaced) ∧
        (s.noDrop p → (∃ x ∈ s.bus.queue, x.displaceable = true) → v.waiting (.drop ⟨p, .withdrawn⟩))))

/-- A start not confirmed in time trips the channel, drops the claim and is counted and recorded; a stop not confirmed
in time is a stop failure that keeps its claim. Each ends the transition that froze the outputs: the hold-over begins
unless another channel is starting or stopping. That a stopped timer, or a channel elsewhere, does nothing, and that an
expiry taken early first lets the missing time pass, is the model's choice (log 2). -/
def Obligations.ConfirmTimersFailTheMove : Prop :=
  ∀ (p : Pump) (s : State),
    ((s.chan p).state ≠ .starting ∨ s.feedback p = true ∨ (s.chan p).startConfirm = none →
      exec (.startConfirmExpiry p) s = .next s) ∧
    (∀ t, (s.chan p).state = .starting → s.feedback p = false → (s.chan p).startConfirm = some t →
      CompletesSettled (.startConfirmExpiry p) s (fun v =>
        v.now = s.endOf t ((s.img.pumps[p]).startConfirm * 1000) ∧ (v.chan p).state = .tripped ∧
        (v.chan p).runLine = false ∧ (v.chan p).claim = none ∧ (v.chan p).tripAck = false ∧
        (v.chan p).startConfirm = none ∧
        v.resp.counters.startFailures = min (s.resp.counters.startFailures + 1) 65535 ∧
        v.faults.shows ⟨.startFail, some p, none, some (s.img.main p)⟩ ∧
        FaultFile.Takes false ⟨.startFail, some p, none, some (s.img.main p)⟩ (v.now / 1000) s.faults v.faults ∧
        AlarmFollows s v ∧ FreezeReleased p s v ∧
        (s.noDrop p → s.roomy → v.waiting (.drop ⟨p, .startFail⟩)))) ∧
    ((s.chan p).state ≠ .stopping ∨ s.feedback p = false ∨ (s.chan p).stopConfirm = none →
      exec (.stopConfirmExpiry p) s = .next s) ∧
    ∀ t, (s.chan p).state = .stopping → s.feedback p = true → (s.chan p).stopConfirm = some t →
      CompletesSettled (.stopConfirmExpiry p) s (fun v =>
        v.now = s.endOf t ((s.img.pumps[p]).stopConfirm * 1000) ∧
        v.chan p = { s.chan p with state := .stopFailed, runLine := false, stopConfirm := none,
                                   stopFail := true } ∧
        v.bus = s.bus ∧ v.faults.shows ⟨.stopFail, some p, none, some (s.img.main p)⟩ ∧
        FaultFile.Takes true ⟨.stopFail, some p, none, some (s.img.main p)⟩ (v.now / 1000) s.faults v.faults ∧
        AlarmFollows s v ∧ FreezeReleased p s v)

/-- The rest ends in the available state; the minimum run of a RUNNING channel is the moment its stop conditions are
tested with it met; a retry hold ends one roll period after it was set. That a stopped timer, or a channel elsewhere,
does nothing, and that an event taken early first lets the missing time pass, here also the run time that the minimum run
lacks, is the model's choice (log 2). -/
def Obligations.RestRunAndHoldEnd : Prop :=
  ∀ (p : Pump) (s : State),
    (∀ t, (s.chan p).state = .resting → (s.chan p).rest = some t →
      CompletesSettled (.restExpiry p) s (fun v =>
        v.now = s.endOf t ((s.img.pumps[p]).minRest * 1000) ∧
        v.chan p = { s.chan p with rest := none, runLine := false, state := s.availableState p })) ∧
    ((s.chan p).state ≠ .resting ∨ (s.chan p).rest = none → exec (.restExpiry p) s = .next s) ∧
    (∀ n d, (s.chan p).state = .running → (s.chan p).currentRun = some n → (s.chan p).claim = some d →
      CompletesSettled (.minimumRunMet p) s (fun v =>
        v.now = s.now + ((s.img.pumps[p]).minRun * 1000 - n) ∧
        (s.mustStop p ∨ s.mayStop p d → (v.chan p).state ≠ .running ∧ (v.chan p).runLine = false ∧
          (s.feedback p = true → (v.chan p).state = .stopping ∧ (v.chan p).stopReason = some .stopped ∧
            (v.chan p).claim = some d)) ∧
        (¬ s.mustStop p → ¬ s.mayStop p d → v.chan p = { s.chan p with
          totalRun := (s.chan p).totalRun + ((s.img.pumps[p]).minRun * 1000 - n),
          currentRun := some (max n ((s.img.pumps[p]).minRun * 1000)) }))) ∧
    ((s.chan p).state ≠ .running ∨ (s.chan p).currentRun = none → exec (.minimumRunMet p) s = .next s) ∧
    (∀ r t, s.request p = some r → r.hold = some t → CompletesSettled (.retryHoldExpiry p) s (fun v =>
      v.now = s.endOf t s.img.rollTime ∧ v.request p = some { r with hold := none } ∧
      (∀ q, q ≠ p → v.request q = s.request q) ∧ v.sched.pickDue = true)) ∧
    ((∀ r, s.request p = some r → r.hold = none) → exec (.retryHoldExpiry p) s = .next s)

/-- The passing of a guard interval picks, on a station at rest with no bid in flight: in ACTIVE the picked channel
takes the bid number and bids, its BID waiting, held back while another is on the bus, or, where a full queue has nothing
less urgent to give up, not taken, with the channel QUEUED again and its hold set; in ISOLATED it starts at once with an
island claim, trips at that moment where OVERLOAD is asserted, and on a full table stays QUEUED with its hold set and
TABLE_FULL recorded; with nothing eligible only the time has passed. (At rest no QUEUED channel has FEEDBACK asserted,
R77.) That an interval taken early first lets the missing time pass is the model's choice (log 2): `w` is that moment;
that the trip at a start comes before a confirmation is log 12. -/
def Obligations.GuardIntervalPassedPicks : Prop :=
  ∀ (m : Main) (t : Nat) (s w : State),
    s.claims.settle[m] = some t → s.Quiet →
    w = s.advance (s.endOf t (s.img.guard[m] * 1000) - s.now) →
    (s.bidInFlight = true ∨ w.pickClass = none → exec (.guardIntervalPassed m) s = .next w) ∧
    ∀ (c : Sys2Proof.Class) (k : Credits) (p : Pump), s.bidInFlight = false → w.pickClass = some (c, k) →
      w.firstOf (allPumps.filter (w.eligibleIn c)) = some p →
      (s.ctl.mode = .active →
        (s.bus.carries (fun x => match x with | .bid _ => true | _ => false) = true ∨ s.roomy ∨
            (∃ x ∈ s.bus.queue, x.displaceable = true ∧ 5 < x.priority) ∧ s.bus.Wf →
          Completes (.guardIntervalPassed m) s (fun v =>
            v.chan p = { w.chan p with state := .bidding, runLine := false,
                                       claim := some ⟨c, s.pumps.bidNumber, false, false⟩ } ∧
            v.pumps.bidNumber = s.pumps.bidNumber + 1#8 ∧ v.sched.credits = k ∧
            (s.bus.carries (fun x => match x with | .bid _ => true | _ => false) = false →
              v.waiting (.bid ⟨p, s.img.main p, s.img.load p, c, s.pumps.bidNumber⟩)) ∧
            (s.bus.carries (fun x => match x with | .bid _ => true | _ => false) = true →
              .bid ⟨p, s.img.main p, s.img.load p, c, s.pumps.bidNumber⟩ ∈ v.bus.held))) ∧
        (s.bus.carries (fun x => match x with | .bid _ => true | _ => false) = false → 16 ≤ s.bus.size →
          (∀ x ∈ s.bus.queue, x.displaceable = true → x.priority ≤ 5) →
          Completes (.guardIntervalPassed m) s (fun v =>
            v.chan p = { w.chan p with state := .queued, runLine := false, claim := none, contest := none } ∧
            v.request p = (s.request p).map (fun r => { r with hold := some w.now }) ∧
            v.pumps.bidNumber ≠ s.pumps.bidNumber ∧ v.bus.queue = s.bus.queue))) ∧
      (s.ctl.mode = .isolated →
        (s.hasRoom = true → Completes (.guardIntervalPassed m) s (fun v =>
          v.request p = none ∧
          v.entry s.own p = some ⟨s.own, p, s.img.main p, s.img.load p, c, .starting, s.pumps.bidNumber, false,
            true, (s.rosterOf s.own).silent⟩ ∧ v.pumps.bidNumber = s.pumps.bidNumber ∧
          (s.overload p = false → (v.chan p).state = .starting ∧ (v.chan p).runLine = true ∧
            (v.chan p).claim = some ⟨c, s.pumps.bidNumber, false, true⟩) ∧
          (s.overload p = true → (v.chan p).state = .tripped ∧ (v.chan p).runLine = false ∧
            (v.chan p).claim = none ∧ (s.roomy → v.waiting (.drop ⟨p, .trip⟩))))) ∧
        (s.hasRoom = false → Completes (.guardIntervalPassed m) s (fun v =>
          v.chan p = w.chan p ∧ v.request p = (s.request p).map (fun r => { r with hold := some w.now }) ∧
          v.claims.entries = s.claims.entries ∧ v.claims.full = true ∧
          v.faults.shows ⟨.tableFull, none, none, none⟩ ∧ v.pumps.bidNumber = s.pumps.bidNumber)))

/-! ## Tank levels -/

/-- R108: a sample of 64 to 4031 is in range and is converted, rounding down, to a level between 0 and the span, which
enters the window; any other sample is not converted and enters no window. -/
def Obligations.SampleConversion : Prop :=
  (∀ (span : Nat) (x : BitVec 12), (sampleInRange x = true ↔ 64 ≤ x.toNat ∧ x.toNat ≤ 4031) ∧
    (sampleInRange x = true → sampleLevel span x = (x.toNat - 64) * span / 3967 ∧ sampleLevel span x ≤ span ∧
      (span ≤ 2000 → sampleLevel span x ≤ 2000))) ∧
  (∀ span, sampleLevel span 64#12 = 0 ∧ sampleLevel span 4031#12 = span) ∧ sampleLevel 800 2048#12 = 400 ∧
  ∀ (i : LevelInput) (x : BitVec 12) (t : Nat) (s : State), (s.input i).sampleTimer = some t →
    CompletesSettled (.sampleTimerExpiry i x) s (fun v =>
      (64 ≤ x.toNat → x.toNat ≤ 4031 →
        (v.input i).window.getLast? = some ((x.toNat - 64) * s.span i / 3967)) ∧
      (x.toNat < 64 ∨ 4031 < x.toNat → (v.input i).window = (s.input i).window ∨ (v.input i).window = []))

/-- A sample: the timer restarts; an in-range one enters the window of at most eight, and a full window gives the mean
as output unless the outputs are frozen, and ends an invalidity; the third out-of-range one in a row empties the
window, makes the output invalid even under a freeze, and is recorded if the input was valid, and only then. That a
stopped timer takes no sample, and that a sample taken early first lets the missing time pass, is the model's choice
(log 2). -/
def Obligations.SamplesMoveTheWindow : Prop :=
  ∀ (i : LevelInput) (x : BitVec 12) (s : State),
    ((s.input i).sampleTimer = none → exec (.sampleTimerExpiry i x) s = .next s) ∧
    ∀ t, (s.input i).sampleTimer = some t → CompletesSettled (.sampleTimerExpiry i x) s (fun v =>
      v.now = s.endOf t 250 ∧ (v.input i).sampleTimer = some v.now ∧
      (sampleInRange x = true →
        (v.input i).outOfRange = 0 ∧
        ((s.input i).window.length < 8 →
          (v.input i).window = (s.input i).window ++ [sampleLevel (s.span i) x]) ∧
        ((s.input i).window.length = 8 →
          (v.input i).window = (s.input i).window.drop 1 ++ [sampleLevel (s.span i) x]) ∧
        ((v.input i).window.length = 8 → (v.input i).valid = true ∧
          (s.levels.freeze = .opened → (v.input i).output = some ((v.input i).window.sum / 8))) ∧
        ((v.input i).window.length ≠ 8 →
          (v.input i).valid = (s.input i).valid ∧ (v.input i).output = (s.input i).output) ∧
        (s.levels.freeze ≠ .opened → (v.input i).output = (s.input i).output) ∧
        ((v.input i).valid = (s.input i).valid → s.faults.keepsKind .levelSensor v.faults)) ∧
      (sampleInRange x = false → (s.input i).outOfRange < 2 →
        v.input i = { s.input i with sampleTimer := some v.now, outOfRange := (s.input i).outOfRange + 1 } ∧
        v.faults = s.faults) ∧
      (sampleInRange x = false → 2 ≤ (s.input i).outOfRange →
        v.input i = ⟨[], 0, false, none, some v.now⟩ ∧
        ((s.input i).valid = true → v.faults.shows (s.sensorKey i)) ∧
        ((s.input i).valid = false → s.faults.keepsKind .levelSensor v.faults)))

/-- The suction output drives the dry-run lockout: an output at or below the dry level enters it, and so does the
third sample in a row out of range, which makes the output invalid, frozen or not; the entry takes every channel out
of QUEUED, BIDDING, CONTENDING, STARTING and RUNNING, a bid in hand withdrawn, and is recorded as DRY_RUN. An output
at or above the release level ends it; an output between, or an invalid one under lockout, leaves it, and DRY_RUN is
recorded or ended only with a change. -/
def Obligations.SuctionDrivesLockout : Prop :=
  ∀ (x : BitVec 12) (t : Nat) (s : State), s.levels.a.sampleTimer = some t →
    (∀ n, sampleInRange x = true → s.levels.freeze = .opened →
      s.levels.a.window.length = 7 ∨ s.levels.a.window.length = 8 →
      n = ((s.levels.a.window.drop (s.levels.a.window.length - 7)).sum + sampleLevel s.img.spanA x) / 8 →
      CompletesSettled (.sampleTimerExpiry .a x) s (fun v =>
        v.levels.a.output = some n ∧
        (v.levels.lockout = s.levels.lockout → s.faults.keepsKind .dryRun v.faults) ∧
        (s.levels.lockout = false → n ≤ s.img.dry →
          v.levels.lockout = true ∧ v.faults.shows ⟨.dryRun, none, none, none⟩ ∧ LockedOut s v) ∧
        (s.levels.lockout = false → s.img.dry < n → v.levels.lockout = false ∧ v.bus = s.bus) ∧
        (s.levels.lockout = true → s.img.release ≤ n →
          v.levels.lockout = false ∧ v.bus = s.bus ∧ v.faults.ended ⟨.dryRun, none, none, none⟩) ∧
        (s.levels.lockout = true → n < s.img.release → v.levels.lockout = true ∧ v.bus = s.bus))) ∧
    (sampleInRange x = false → 2 ≤ s.levels.a.outOfRange →
      CompletesSettled (.sampleTimerExpiry .a x) s (fun v =>
        v.levels.a.output = none ∧ v.levels.lockout = true ∧
        (s.levels.lockout = false → v.faults.shows ⟨.dryRun, none, none, none⟩ ∧ LockedOut s v) ∧
        (s.levels.lockout = true → v.bus = s.bus ∧ s.faults.keepsKind .dryRun v.faults)))

/-- The end of the hold-over sets each sampled input's output from its window, with the lockout tested on the output of A;
a RUNNING channel none of whose stop conditions holds at the new outputs runs on; where no channel changes its state, or
none was starting or running, the outputs are open, and a channel that is stopping then freezes them again. The blind-run
limit stops RUNNING ordinary channels that have met their minimum run while the
delivery level is stale; the start-up allowance takes what still stands from reset as an entry and an onset. That a
stopped timer does nothing, and that an expiry taken early first lets the missing time pass, is the model's choice
(log 2). -/
def Obligations.LevelTimersExpire : Prop :=
  ∀ s : State,
    (s.levels.holdOver = none → exec .holdOverExpiry s = .next s) ∧
    (∀ t, s.levels.holdOver = some t → CompletesSettled .holdOverExpiry s (fun v =>
      v.now = s.endOf t 4000 ∧
      (s.levels.a.sampleTimer.isSome = true → v.levels.a.output = s.levels.a.filtered) ∧
      (s.levels.b.sampleTimer.isSome = true → v.levels.b.output = s.levels.b.filtered) ∧
      (s.levels.a.sampleTimer.isSome = true →
        (s.levels.lockout = false → (v.levels.lockout = true ↔ ∀ n, s.levels.a.filtered = some n → n ≤ s.img.dry)) ∧
        (s.levels.lockout = true →
          (v.levels.lockout = false ↔ ∃ n, s.levels.a.filtered = some n ∧ s.img.release ≤ n))) ∧
      (v.levels.lockout = s.levels.lockout → s.faults.keepsKind .dryRun v.faults) ∧
      (∀ p d r, (s.chan p).state = .running → (s.chan p).claim = some d → (s.chan p).currentRun = some r →
        ¬ v.mustStop p → (¬ v.mayStop p d ∨ r + (v.now - s.now) < (s.img.pumps[p]).minRun * 1000) →
        (v.chan p).state = .running ∧ (v.chan p).runLine = (s.chan p).runLine ∧ (v.chan p).claim = some d) ∧
      ((∀ p, (v.chan p).state = (s.chan p).state) ∨
          (∀ p, (s.chan p).state ≠ .starting ∧ (s.chan p).state ≠ .running) →
        v.levels.freeze = .opened ∧ v.levels.holdOver = none) ∧
      ((∃ p, (v.chan p).state = .stopping ∧ (s.chan p).state ≠ .stopping) →
        v.levels.freeze = .frozen ∧ v.levels.holdOver = none))) ∧
    (s.levels.blindReached = true ∨ s.levels.blindTimer = none → exec .blindRunLimitReached s = .next s) ∧
    (∀ t, s.levels.blindReached = false → s.levels.blindTimer = some t →
      CompletesSettled .blindRunLimitReached s (fun v =>
        v.now = s.endOf t (s.img.blindLimit * 1000) ∧ v.levels.blindReached = true ∧
        ∀ p d n, (s.chan p).state = .running → (s.chan p).claim = some d → (s.chan p).currentRun = some n →
          (d.cls ≠ 0 → s.delivery = none → (s.img.pumps[p]).minRun * 1000 ≤ n → (v.chan p).state ≠ .running) ∧
          (d.cls = 0 → ¬ s.mustStop p → (v.chan p).state = .running))) ∧
    (s.levels.allowance = none → exec .startUpAllowanceExpiry s = .next s) ∧
    ∀ t, s.levels.allowance = some t → CompletesSettled .startUpAllowanceExpiry s (fun v =>
      v.now = s.endOf t (3 * s.img.rollTime) ∧ v.levels.allowance = none ∧
      (s.levels.lockoutUnrecorded = true → v.levels.lockout = true ∧ v.levels.lockoutUnrecorded = false ∧
        v.faults.shows ⟨.dryRun, none, none, none⟩) ∧
      (s.levels.lockoutUnrecorded = false → v.levels.lockout = s.levels.lockout ∧ s.faults.keepsKind .dryRun v.faults) ∧
      (s.levels.staleUnrecorded = true → v.levels.staleUnrecorded = false ∧ v.levels.blindTimer = some v.now ∧
        v.faults.shows ⟨.remoteLevelStale, none, some s.levelPeer, none⟩) ∧
      (s.levels.staleUnrecorded = false → v.levels.blindTimer = s.levels.blindTimer ∧
        s.faults.keepsKind .remoteLevelStale v.faults))

/-! ## The alarm output -/

/-- The pulse timer releases the line; MUTE asserted releases it and cuts a pulse short; MUTE released drives it again
in LEVEL if the alarm is pending, and in PULSE gives the held pulse if it is. The model's choices: a stopped pulse timer
does nothing and an expiry taken early first lets the missing time pass (log 2); a MUTE command that names the level the
line has does nothing (log 3). -/
def Obligations.PulseAndMute : Prop :=
  ∀ s : State,
    (s.alarm.pulseTimer = none → exec .pulseTimerExpiry s = .next s) ∧
    (∀ t, s.alarm.pulseTimer = some t → Completes .pulseTimerExpiry s (fun v =>
      v.now = s.endOf t 2000 ∧ v.alarm = { s.alarm with driven := false, pulseTimer := none } ∧
      v.faults = s.faults ∧ v.bus = s.bus ∧ v.claims = s.claims)) ∧
    (s.field.mute = true → exec .muteAsserted s = .next s) ∧
    (s.field.mute = false → exec .muteAsserted s = .next
      { s with field := { s.field with mute := true }
               alarm := { s.alarm with driven := false, pulseTimer := none } }) ∧
    (s.field.mute = false → exec .muteReleased s = .next s) ∧
    (s.field.mute = true → Completes .muteReleased s (fun v =>
      v = { s with field := { s.field with mute := false }, alarm := v.alarm } ∧
      (s.alarm.mode = .level → v.alarm = { s.alarm with driven := s.faults.pending }) ∧
      (s.alarm.mode = .pulse → s.alarm.heldPulse = false → v.alarm = s.alarm) ∧
      (s.alarm.mode = .pulse → s.alarm.heldPulse = true → s.faults.pending = false →
        v.alarm = { s.alarm with heldPulse := false }) ∧
      (s.alarm.mode = .pulse → s.alarm.heldPulse = true → s.faults.pending = true →
        v.alarm = ⟨true, .pulse, some s.now, false⟩)))

/-! ## The pump lines -/

/-- A rise of FEEDBACK confirms a start, takes a channel that is not running its pump to LOCAL_RUN with a manual claim
whose RUN waits, a bid in hand withdrawn, gives a TRIPPED channel without a claim a manual one, and leaves the others.
A confirmed start that runs on begins the hold-over of the outputs, unless another channel is starting or stopping;
one that must stop at once keeps them frozen. The model's choices: where FEEDBACK is asserted already the command does
nothing (log 3), and a channel tripped by a failed start is treated as every TRIPPED one (log 28). -/
def Obligations.FeedbackRiseActs : Prop :=
  ∀ (p : Pump) (s : State),
    (s.feedback p = true → exec (.feedbackRises p) s = .next s) ∧
    (s.feedback p = false → s.inUse p = false → Completes (.feedbackRises p) s (fun t =>
      t = { s with field := t.field } ∧ t.feedback p = true)) ∧
    (s.feedback p = false → s.inUse p = true → CompletesSettled (.feedbackRises p) s (fun v =>
      v.feedback p = true ∧ v.claims = s.claims ∧
      (∀ t d, (s.chan p).state = .starting → (s.chan p).startConfirm = some t → (s.chan p).claim = some d →
        (v.chan p).lastStart = some (min (s.now - t) 65535) ∧ (v.chan p).startConfirm = none ∧
        (¬ s.mustStop p → ((s.img.pumps[p]).minRun ≠ 0 ∨ ¬ s.mayStop p d) →
          (v.chan p).state = .running ∧ (v.chan p).runLine = true ∧ (v.chan p).currentRun = some 0 ∧
          FreezeReleased p s v ∧
          (s.noRun p → s.roomy →
            v.waiting (.run ⟨p, s.img.main p, s.img.load p, d.cls, d.bid, d.manual, d.island⟩))) ∧
        (s.mustStop p → (v.chan p).state = .stopping ∧ (v.chan p).runLine = false ∧
          v.levels = { s.levels with freeze := .frozen, holdOver := none })) ∧
      ((s.chan p).state ≠ .starting → v.levels = s.levels) ∧
      (((s.chan p).state.yieldsToHand = true ∨ (s.chan p).state.inContest = true) →
        (v.chan p).state = .localRun ∧ (v.chan p).claim = some ⟨1, s.pumps.bidNumber, true, false⟩ ∧
        v.request p = none ∧
        (s.noRun p → s.bus.size + 1 < 16 →
          v.waiting (.run ⟨p, s.img.main p, s.img.load p, 1, s.pumps.bidNumber, true, false⟩)) ∧
        TelegramsWithdrawn True (s.takesDrops 1) p s v) ∧
      ((s.chan p).state = .tripped → (s.chan p).claim = none →
        v.chan p = { s.chan p with claim := some ⟨1, s.pumps.bidNumber, true, false⟩ } ∧
        (s.noRun p → s.roomy →
          v.waiting (.run ⟨p, s.img.main p, s.img.load p, 1, s.pumps.bidNumber, true, false⟩))) ∧
      ((s.chan p).state = .running ∨ (s.chan p).state = .stopping ∨ (s.chan p).state = .stopFailed ∨
        (s.chan p).state = .localRun ∨ ((s.chan p).state = .tripped ∧ (s.chan p).claim ≠ none) →
        v = { s with field := v.field })))

/-- A fall of FEEDBACK ends the claim of a channel that has one, with the DROP of its cause, and takes RUNNING,
STOPPING and STOP_FAILED to the rest, LOCAL_RUN to the available state; it leaves a channel whose pump was not
running. A confirmed stop begins the hold-over of the outputs, unless another channel is starting or stopping. The
model's choices: where FEEDBACK is released already the command does nothing (log 3), and the DROP of a
TRIPPED channel is a TRIP also after a failed start (log 28). -/
def Obligations.FeedbackFallActs : Prop :=
  ∀ (p : Pump) (s : State),
    (s.feedback p = false → exec (.feedbackFalls p) s = .next s) ∧
    (s.feedback p = true → s.inUse p = false → Completes (.feedbackFalls p) s (fun t =>
      t = { s with field := t.field } ∧ t.feedback p = false)) ∧
    (s.feedback p = true → s.inUse p = true → CompletesSettled (.feedbackFalls p) s (fun v =>
      v.feedback p = false ∧ v.claims = s.claims ∧
      ((s.chan p).state = .stopping → FreezeReleased p s v) ∧ ((s.chan p).state ≠ .stopping → v.levels = s.levels) ∧
      ((s.chan p).state = .running ∨ (s.chan p).state = .stopping ∨ (s.chan p).state = .stopFailed →
        (v.chan p).claim = none ∧ (v.chan p).runLine = false ∧
        ((s.img.pumps[p]).minRest ≠ 0 → (v.chan p).state = .resting ∧ (v.chan p).rest = some s.now) ∧
        ((s.img.pumps[p]).minRest = 0 → (v.chan p).state = s.availableState p) ∧
        (s.noDrop p → s.roomy →
          ((s.chan p).state = .stopping → (s.chan p).stopReason = some .shed → v.waiting (.drop ⟨p, .shed⟩)) ∧
          ((s.chan p).state ≠ .stopping ∨ (s.chan p).stopReason ≠ some .shed →
            v.waiting (.drop ⟨p, .stopped⟩)))) ∧
      ((s.chan p).state = .stopFailed → (v.chan p).stopFail = false) ∧
      ((s.chan p).state = .tripped → (v.chan p).state = .tripped ∧ (v.chan p).claim = none ∧
        (v.chan p).stopFail = false ∧
        ((s.chan p).claim ≠ none → s.noDrop p → s.roomy → v.waiting (.drop ⟨p, .trip⟩))) ∧
      ((s.chan p).state = .localRun → (v.chan p).state = s.availableState p ∧ (v.chan p).claim = none ∧
        (s.noDrop p → s.roomy → v.waiting (.drop ⟨p, .localEnd⟩))) ∧
      (((s.chan p).state.yieldsToHand = true ∨ (s.chan p).state.inContest = true ∨
        (s.chan p).state = .starting ∨ (s.chan p).state = .disabled) → v = { s with field := v.field })))

/-- OVERLOAD asserted is recorded at a channel in use, with the alarm line following the file, and trips one that is
starting, running, stopping or stop-failed; released, its condition ends, and a TRIPPED channel whose trip is
acknowledged goes to the rest where no record names it, or only the acknowledged OVERLOAD record that stands and that
this release removes. A command that names the level the line has does nothing (the model's choice, log 3). -/
def Obligations.OverloadTrips : Prop :=
  ∀ (p : Pump) (s : State),
    (s.overload p = true → exec (.overloadAsserted p) s = .next s) ∧
    (s.overload p = false → exec (.overloadReleased p) s = .next s) ∧
    (s.overload p = false → s.inUse p = false → Completes (.overloadAsserted p) s (fun t =>
      t = { s with field := t.field } ∧ t.overload p = true)) ∧
    (s.overload p = true → s.inUse p = false → Completes (.overloadReleased p) s (fun t =>
      t = { s with field := t.field } ∧ t.overload p = false)) ∧
    (s.overload p = false → s.inUse p = true →
      CompletesSettled (.overloadAsserted p) s (fun v =>
        v = { s with field := v.field, faults := v.faults, alarm := v.alarm } ∧ v.overload p = true ∧
        v.faults.shows ⟨.overload, some p, none, some (s.img.main p)⟩ ∧ AlarmFollows s v ∧
        FaultFile.Takes true ⟨.overload, some p, none, some (s.img.main p)⟩ (s.now / 1000) s.faults v.faults) ∧
      ((s.chan p).state.trips = true → Completes (.overloadAsserted p) s (fun t =>
        (t.chan p).state = .tripped ∧ (t.chan p).runLine = false ∧ (t.chan p).tripAck = false ∧
        (t.chan p).currentRun = none ∧ (t.chan p).startConfirm = none ∧ (t.chan p).stopConfirm = none ∧
        (s.feedback p = false → (t.chan p).claim = none) ∧
        (s.feedback p = true → (t.chan p).claim = (s.chan p).claim)))) ∧
    (s.overload p = true → s.inUse p = true →
      CompletesSettled (.overloadReleased p) s (fun v =>
        v = { s with field := v.field, faults := v.faults, alarm := v.alarm } ∧ v.overload p = false ∧
        AlarmFollows s v ∧ FaultFile.Ends ⟨.overload, some p, none, some (s.img.main p)⟩ s.faults v.faults ∧
        ∀ r ∈ v.faults.records, r.key = ⟨.overload, some p, none, some (s.img.main p)⟩ → r.standing = false) ∧
      ((s.chan p).state = .tripped → s.feedback p = false → (s.chan p).tripAck = true →
        (∀ r ∈ s.faults.records, r.key.pump = some p → r.key.kind ≠ .startFail ∧
          (r.key.kind = .overload → r.key = ⟨.overload, some p, none, some (s.img.main p)⟩ ∧ r.standing = true ∧
            r.acked = true)) →
        Completes (.overloadReleased p) s (fun t =>
          (∀ r ∈ t.faults.records, r.key ≠ ⟨.overload, some p, none, some (s.img.main p)⟩) ∧
          ((s.img.pumps[p]).minRest ≠ 0 → (t.chan p).state = .resting ∧ (t.chan p).rest = some s.now) ∧
          ((s.img.pumps[p]).minRest = 0 → (t.chan p).state ≠ .tripped))))

/-- AUTO released takes a waiting or idle channel to LOCAL, a bid in hand withdrawn, a starting one to its stop and a
running one to LOCAL_RUN with a manual claim of the same bid number; asserted, it takes LOCAL to the available state
and returns a LOCAL_RUN channel whose RUN is carried to RUNNING with a class-2 claim; the others it leaves. The
model's choices: a command that names the level the line has does nothing (log 3), and under OVERLOAD the return
queues its RUN before the trip (log 12). -/
def Obligations.AutoHandsOver : Prop :=
  ∀ (p : Pump) (s : State),
    (s.auto p = false → exec (.autoReleased p) s = .next s) ∧
    (s.auto p = true → exec (.autoAsserted p) s = .next s) ∧
    (s.auto p = true → s.inUse p = false → Completes (.autoReleased p) s (fun t =>
      t = { s with field := t.field } ∧ t.auto p = false)) ∧
    (s.auto p = false → s.inUse p = false → Completes (.autoAsserted p) s (fun t =>
      t = { s with field := t.field } ∧ t.auto p = true)) ∧
    (s.auto p = true → s.inUse p = true → CompletesSettled (.autoReleased p) s (fun v =>
      v.auto p = false ∧ v.sched.evalDue = true ∧ v.claims = s.claims ∧
      ((s.chan p).state = .idle ∨ (s.chan p).state = .locked → (v.chan p).state = .localOff) ∧
      ((s.chan p).state.requests = true →
        (v.chan p).state = .localOff ∧ v.request p = none ∧
        ((s.chan p).state.inContest = true → (v.chan p).claim = none ∧
          TelegramsWithdrawn True (s.takesDrops 1) p s v)) ∧
      ((s.chan p).state = .starting → (v.chan p).runLine = false ∧
        (s.feedback p = true → (v.chan p).state = .stopping) ∧
        (s.feedback p = false → (v.chan p).claim = none)) ∧
      (∀ d, (s.chan p).state = .running → (s.chan p).claim = some d →
        (v.chan p).state = .localRun ∧ (v.chan p).runLine = false ∧
        (v.chan p).claim = some ⟨1, d.bid, true, false⟩ ∧
        (s.noRun p → s.roomy →
          v.waiting (.run ⟨p, s.img.main p, s.img.load p, 1, d.bid, true, false⟩))) ∧
      ((s.chan p).state = .resting ∨ (s.chan p).state = .stopping ∨ (s.chan p).state = .stopFailed ∨
        (s.chan p).state = .tripped ∨ (s.chan p).state = .localOff ∨ (s.chan p).state = .localRun →
        v.chan p = s.chan p))) ∧
    (s.auto p = false → s.inUse p = true → CompletesSettled (.autoAsserted p) s (fun v =>
      v.auto p = true ∧ v.sched.evalDue = true ∧ v.claims = s.claims ∧
      ((s.chan p).state = .localOff → (v.chan p).state = (if s.gangStopped p = true then .locked else .idle)) ∧
      (∀ d, (s.chan p).state = .localRun → (s.chan p).claim = some d → s.feedback p = true →
        s.bus.has (Telegram.isRunOf p) = false → (s.entry s.own p).isSome = true →
        (v.chan p).claim = some ⟨2, d.bid, false, false⟩ ∧
        (¬ s.mustStop p → (s.img.pumps[p]).minRun ≠ 0 → (v.chan p).state = .running ∧
          (v.chan p).runLine = true ∧ (v.chan p).currentRun = some 0 ∧
          (s.roomy → v.waiting (.run ⟨p, s.img.main p, s.img.load p, 2, d.bid, false, false⟩)))) ∧
      ((s.chan p).state = .localRun →
        (s.bus.has (Telegram.isRunOf p) = true ∨ s.entry s.own p = none) → v.chan p = s.chan p) ∧
      ((s.chan p).state ≠ .localOff → (s.chan p).state ≠ .localRun → v.chan p = s.chan p)))

/-- Gang stop asserted locks out every gang channel that is idle or has a request, a bid in hand withdrawn, and stops
every one that is starting or running; released, LOCKED channels take the available state. With the receiver off only
the line changes. A command that names the level the input has does nothing (the model's choice, log 3). -/
def Obligations.GangStopLocksOut : Prop :=
  ∀ s : State,
    (s.field.gangStop = true → exec .gangStopAsserted s = .next s) ∧
    (s.field.gangStop = false → exec .gangStopReleased s = .next s) ∧
    (s.field.gangStop = false → s.receiverOn = false →
      exec .gangStopAsserted s = .next { s with field := { s.field with gangStop := true } }) ∧
    (s.field.gangStop = true → s.receiverOn = false →
      exec .gangStopReleased s = .next { s with field := { s.field with gangStop := false } }) ∧
    (s.field.gangStop = false → s.receiverOn = true → CompletesSettled .gangStopAsserted s (fun v =>
      v.field.gangStop = true ∧ v.sched.evalDue = true ∧ v.claims = s.claims ∧
      ∀ p, s.img.gang p = true →
        ((s.chan p).state = .idle ∨ (s.chan p).state.requests = true →
          (v.chan p).state = .locked ∧ ((s.chan p).state.requests = true → v.request p = none) ∧
          ((s.chan p).state.inContest = true → (v.chan p).claim = none ∧
            TelegramsWithdrawn False (s.takesDrops 6) p s v)) ∧
        ((s.chan p).state = .starting ∨ (s.chan p).state = .running →
          (v.chan p).runLine = false ∧ (s.feedback p = true → (v.chan p).state = .stopping) ∧
          (s.feedback p = false → (v.chan p).claim = none)) ∧
        ((s.chan p).state = .resting ∨ (s.chan p).state = .stopping ∨ (s.chan p).state = .stopFailed ∨
          (s.chan p).state = .tripped ∨ (s.chan p).state = .localOff ∨ (s.chan p).state = .localRun →
          v.chan p = s.chan p))) ∧
    (s.field.gangStop = true → s.receiverOn = true → CompletesSettled .gangStopReleased s (fun v =>
      v.field.gangStop = false ∧ v.sched.evalDue = true ∧ v.claims = s.claims ∧
      ∀ p, ((s.chan p).state = .locked →
          (v.chan p).state = (if s.auto p = true then .idle else .localOff)) ∧
        ((s.chan p).state ≠ .locked → v.chan p = s.chan p)))

/-- A change of the fire-demand or the off-peak line evaluates demand, seen here where nothing is picked, in LISTEN on
a station at rest: an idle channel with demand gains a request of its class at the present moment, a waiting request
takes the class of its demand, one without demand goes and its channel is available, and the others stay. In every mode
a channel in BIDDING or CONTENDING whose demand lapses is withdrawn to the available state. With the
receiver off only the line changes. -/
def Obligations.DemandLinesEvaluate : Prop :=
  ∀ (c : Instr) (s u : State),
    ((∃ b, c = .fireDemandChange b ∧ s.field.fireDemand ≠ b ∧
        u = { s with field := { s.field with fireDemand := b } }) ∨
      (∃ b, c = .offPeakChange b ∧ s.field.offPeak ≠ b ∧ u = { s with field := { s.field with offPeak := b } })) →
    (s.receiverOn = false → exec c s = .next u) ∧
    (s.receiverOn = true → CompletesSettled c s (fun v =>
      v = { u with sched := { u.sched with evalDue := true } })) ∧
    (s.ctl.mode = .listen → s.Quiet → Completes c s (fun t => ∀ p,
      (∀ k, (s.chan p).state = .idle → u.demand p = some k →
        t.chan p = { s.chan p with state := .queued, runLine := false } ∧
        t.request p = some ⟨k, s.now, none⟩) ∧
      (∀ k r, (s.chan p).state = .queued → u.demand p = some k → s.request p = some r →
        t.chan p = s.chan p ∧ t.request p = some { r with cls := k }) ∧
      ((s.chan p).state = .queued → u.demand p = none →
        t.chan p = { s.chan p with state := s.availableState p, runLine := false } ∧ t.request p = none) ∧
      ((s.chan p).state ≠ .queued → (s.chan p).state.inContest = false →
        ((s.chan p).state = .idle → u.demand p = none) → t.chan p = s.chan p ∧ t.request p = s.request p))) ∧
    (s.receiverOn = true → s.Quiet → Completes c s (fun t => ∀ p,
      (s.chan p).state.inContest = true → u.demand p = none → s.feedback p = false →
        (t.chan p).state = s.availableState p ∧ t.request p = none ∧ (t.chan p).claim = none ∧
        TelegramsWithdrawn False (s.takesDrops 6) p s t))

/-! ## Demand and the pick -/

/-- Demand names the lowest class whose condition holds, and only at a channel in use, under AUTO, free of gang stop,
service block and lockout, below the high-high level (R86, R87). A request is eligible for picking with its hold clear
in QUEUED, no bid in flight, the mode's own test passed, the hold flag clear or class 0, its main not busy and its
guard interval passed (R96 to R99). -/
def Obligations.DemandAndEligibility : Prop :=
  (∀ (s : State) (p : Pump) (allowed : Prop) (low : Nat → Prop),
    (allowed ↔ s.inUse p = true ∧ s.auto p = true ∧ s.gangStopped p = false ∧ (s.chan p).serviceBlock = false ∧
      s.levels.lockout = false ∧ ∀ n, s.delivery = some n → n < s.img.highHigh) →
    (∀ k, low k ↔ ∃ n, s.delivery = some n ∧ n ≤ k) →
    (s.demand p = some 0 ↔ allowed ∧ s.field.fireDemand = true) ∧
    (s.demand p = some 1 ↔ allowed ∧ s.field.fireDemand = false ∧ low s.img.critical) ∧
    (s.demand p = some 2 ↔ allowed ∧ s.field.fireDemand = false ∧ ¬ low s.img.critical ∧
      low (s.img.pumps[p]).startLevel) ∧
    (s.demand p = some 3 ↔ allowed ∧ s.field.fireDemand = false ∧ ¬ low s.img.critical ∧
      ¬ low (s.img.pumps[p]).startLevel ∧ s.field.offPeak = true ∧ low s.img.topUp)) ∧
  ∀ (s : State) (p : Pump) (r : Request), s.request p = some r →
    (s.eligible p = true ↔
      r.hold = none ∧ (s.chan p).state = .queued ∧ (∀ q, (s.chan q).state.inContest = false) ∧
      (s.ctl.hold = false ∨ r.cls = 0) ∧
      (∀ e ∈ s.claims.entries, e.main = s.img.main p → e.state = .running) ∧
      (∀ t, s.claims.settle[s.img.main p] = some t → t + s.img.guard[s.img.main p] * 1000 ≤ s.now) ∧
      ((s.ctl.mode = .active ∧ s.ctl.mismatch = none ∧ s.entry s.own p = none ∧
          s.countedLoad + s.img.load p ≤ s.img.cap ∧
          (r.cls = 0 ∨ s.countedLoad + s.img.load p ≤ s.img.cap - s.img.reserve) ∧
          s.claims.entries.length < 48) ∨
       (s.ctl.mode = .isolated ∧ (r.cls = 0 ∨ r.cls = 1) ∧ s.ownLoad + s.img.load p ≤ s.img.allowance ∧
          (∀ q, (s.chan q).state = .starting → s.img.main q ≠ s.img.main p) ∧ s.noDrop p)))

/-- The order of picks: fire first; STRICT takes the lowest class with an eligible request and leaves the credits;
MIXED clears the credits of the classes with nothing eligible, raises the others by their weights, picks the greatest, a
tie to the lower class, which pays the sum of the weights, all held within −6 and 6; with all three classes eligible that
picks 1, 2, 1, 3, 2, 1 from clear credits and clears them again. Inside the class the oldest arrival, then the least
total run time, then the lowest pump; that the run times are compared in whole seconds is the model's reading
(log 18). -/
def Obligations.PickOrder : Prop :=
  (∀ s : State, s.anyEligible 0 = true → s.pickClass = some (0, s.sched.credits)) ∧
  (∀ (s : State) (c : Sys2Proof.Class) (k : Credits), s.img.strict = true →
    (s.pickClass = some (c, k) ↔
      s.anyEligible c = true ∧ k = s.sched.credits ∧ ∀ b, b < c → s.anyEligible b = false)) ∧
  (∀ s : State, s.img.strict = false → s.anyEligible 0 = false →
    (s.pickClass = none ↔ ∀ b, s.anyEligible b = false) ∧
    ∀ (c : Sys2Proof.Class) (k : Credits), s.pickClass = some (c, k) ↔
      c ≠ 0 ∧ s.anyEligible c = true ∧
      (∀ b, b ≠ 0 → s.anyEligible b = true →
        s.raisedCredit b < s.raisedCredit c ∨ (s.raisedCredit b = s.raisedCredit c ∧ c ≤ b)) ∧
      k.of c = heldCredit (s.raisedCredit c - (s.addedWeight 1 + s.addedWeight 2 + s.addedWeight 3)) ∧
      ∀ b, b ≠ 0 → b ≠ c → k.of b = s.raisedCredit b) ∧
  (∃ k1 k2 k3 k4 k5, mixedPick true true true ⟨0, 0, 0⟩ = some (1, k1) ∧ mixedPick true true true k1 = some (2, k2) ∧
    mixedPick true true true k2 = some (1, k3) ∧ mixedPick true true true k3 = some (3, k4) ∧
    mixedPick true true true k4 = some (2, k5) ∧ mixedPick true true true k5 = some (1, ⟨0, 0, 0⟩)) ∧
  ∀ (s : State) (ps : List Pump) (p : Pump), s.firstOf ps = some p →
    p ∈ ps ∧ ∀ q ∈ ps, s.arrival p < s.arrival q ∨ (s.arrival p = s.arrival q ∧
      ((s.chan p).totalSeconds < (s.chan q).totalSeconds ∨
        ((s.chan p).totalSeconds = (s.chan q).totalSeconds ∧ p ≤ q)))

/-- A queue of fewer than sixteen takes every telegram in the order of kind priority, behind its equals; a full one
gives up the youngest of its least urgent displaceable telegrams for a more urgent one, or for any RUN or DROP, and
keeps all the others. A full one with nothing displaceable, which R136 rules out, takes nothing, not even a RUN or
DROP (the model's choice, log 15). -/
def Obligations.QueueTakesAndDisplaces : Prop :=
  ∀ (t : Telegram) (b : Bus), (b.queue.map Telegram.priority).Pairwise (· ≤ ·) →
    (b.size < 16 → ∃ q l r, b.intake t = .taken q ∧ q = l ++ t :: r ∧ b.queue = l ++ r ∧
      (∀ x ∈ l, x.priority ≤ t.priority) ∧ ∀ x ∈ r, t.priority < x.priority) ∧
    (16 ≤ b.size → ∀ l y r, b.queue = l ++ y :: r → y.displaceable = true →
      (∀ x ∈ r, x.displaceable = false) →
      (t.alwaysTaken = true ∨ t.priority < y.priority → ∃ q l' r', b.intake t = .displacing y q ∧
        q = l' ++ t :: r' ∧ l' ++ r' = l ++ r ∧ (∀ x ∈ l', x.priority ≤ t.priority) ∧
        (∀ x ∈ r', t.priority < x.priority) ∧ (q.map Telegram.priority).Pairwise (· ≤ ·)) ∧
      (t.alwaysTaken = false → y.priority ≤ t.priority → b.intake t = .notTaken)) ∧
    (16 ≤ b.size → (∀ x ∈ b.queue, x.displaceable = false) → b.intake t = .notTaken)

/-! ## Frames -/

/-- What the receptions leave alone: the clock, the lines, the loader, the mode and the listen, the
level inputs and the lockout, the telegram on the bus, the timers and counts of the bus, the alarm mode, the run times
and service blocks (a SHED or FREE apart), and every counter but those of receptions, vetoes, sheds and losses. In the
fault file, a CLEAR apart, the records of the kinds that the blocks a telegram acts on do not raise stay (R165), and those
of another peer; of a sender that is not silent also every PEER_SILENT, and but for a ROLL every DIGEST_MISMATCH. -/
def Obligations.ReceptionsLeaveTheRest : Prop :=
  ∀ (c : Instr) (src : Addr) (s : State), receptionSource c = some src → Completes c s (fun t =>
    t.now = s.now ∧ t.field = s.field ∧ t.loader = s.loader ∧ t.ctl.mode = s.ctl.mode ∧
    t.ctl.listenTimer = s.ctl.listenTimer ∧ t.ctl.ackMark = s.ctl.ackMark ∧
    t.levels.a = s.levels.a ∧ t.levels.b = s.levels.b ∧ t.levels.lockout = s.levels.lockout ∧
    t.bus.onBus = s.bus.onBus ∧ t.bus.slotOpen = s.bus.slotOpen ∧ t.bus.unacked = s.bus.unacked ∧
    t.bus.window = s.bus.window ∧ t.bus.rollTimer = s.bus.rollTimer ∧ t.alarm.mode = s.alarm.mode ∧
    (∀ p, (t.chan p).totalRun = (s.chan p).totalRun) ∧
    ((∀ b, c ≠ .holdReceived src b) → (∀ b, c ≠ .freeReceived src b) → t.ctl.hold = s.ctl.hold) ∧
    ((∀ b, c ≠ .shedReceived src b) → (∀ b, c ≠ .freeReceived src b) →
      ∀ p, (t.chan p).serviceBlock = (s.chan p).serviceBlock) ∧
    ((∀ b, c ≠ .runReceived src b) → t.claims.settle = s.claims.settle) ∧
    (∀ o, Addr.station? src ≠ some o → t.rosterOf o = s.rosterOf o) ∧
    ((∀ b, c ≠ .clearReceived src b) →
      RecordsStay (fun k => k.kind ∈ reportKinds c) s t ∧
      RecordsStay (fun k => k.peer = some src ∨ k.peer = none ∨ k.kind = .digestMismatch) s t ∧
      (s.audible src → RecordsStay (fun k => k.kind ≠ .peerSilent ∧
        (k.kind = .digestMismatch → ∃ b, c = .rollReceived src b)) s t)) ∧
    t.resp.counters = { s.resp.counters with
      receivedValid := t.resp.counters.receivedValid, displaced := t.resp.counters.displaced,
      bidsVetoed := t.resp.counters.bidsVetoed, sheds := t.resp.counters.sheds })

/-- What the other timers, the slot's end and the station's lines leave alone: the loader, the roster, the settle times,
the hold flag, the telegram on the bus, the pump lines, the service blocks, the table unless the station is then
ISOLATED, and, but for the commands they belong to, the mode, the level inputs, the bus counts and the roll timer.
What the commands of one pump (its lines, its confirm, rest, contest and hold timers) leave alone: the roster, the
settle times, the level inputs, the lockout, the mode, the telegram on the bus, every other pump's lines, the table
outside ISOLATED, and every other channel that neither is idle nor waits nor bids and whose lines call for nothing: of
such a channel only the run times count on in RUNNING, by the time that has passed. In the fault file the records of the
kinds that the blocks a command acts on do not raise stay (R165), and at the commands of one pump those of the others. -/
def Obligations.LinesAndTimersLeaveTheRest : Prop :=
  (∀ (c : Instr) (s : State),
    (c = .rollTimerExpiry ∨ c = .listenTimerExpiry ∨ (∃ b, c = .acknowledgeSlotEnd b) ∨ (∃ m, c = .guardIntervalPassed m) ∨
      (∃ i x, c = .sampleTimerExpiry i x) ∨ c = .holdOverExpiry ∨ c = .blindRunLimitReached ∨
      c = .startUpAllowanceExpiry ∨ c = .gangStopAsserted ∨ c = .gangStopReleased ∨
      (∃ b, c = .fireDemandChange b) ∨ (∃ b, c = .offPeakChange b) ∨ (∃ p, c = .minimumRunMet p)) →
    Completes c s (fun t =>
      t.loader = s.loader ∧ t.claims.roster = s.claims.roster ∧ t.claims.settle = s.claims.settle ∧
      t.ctl.hold = s.ctl.hold ∧ t.ctl.mismatch = s.ctl.mismatch ∧ t.bus.onBus = s.bus.onBus ∧
      t.field.pump = s.field.pump ∧ t.field.mute = s.field.mute ∧ t.levels.remote = s.levels.remote ∧
      (∀ p, (t.chan p).serviceBlock = (s.chan p).serviceBlock) ∧
      (t.ctl.mode ≠ .isolated → t.claims.entries = s.claims.entries) ∧
      RecordsStay (fun k => k.kind ∈ reportKinds c) s t ∧
      ((∀ b, c ≠ .acknowledgeSlotEnd b) →
        t.bus.slotOpen = s.bus.slotOpen ∧ t.bus.unacked = s.bus.unacked ∧
        (c ≠ .listenTimerExpiry → t.ctl = s.ctl)) ∧
      (c ≠ .rollTimerExpiry → t.bus.window = s.bus.window ∧ t.bus.rollTimer = s.bus.rollTimer) ∧
      ((∀ i x, c ≠ .sampleTimerExpiry i x) → c ≠ .holdOverExpiry →
        t.levels.a = s.levels.a ∧ t.levels.b = s.levels.b ∧
        (c ≠ .startUpAllowanceExpiry → t.levels.lockout = s.levels.lockout)))) ∧
  ∀ (c : Instr) (p : Pump) (s : State),
    (c = .feedbackRises p ∨ c = .feedbackFalls p ∨ c = .overloadAsserted p ∨ c = .overloadReleased p ∨
      c = .autoReleased p ∨ c = .autoAsserted p ∨ c = .startConfirmExpiry p ∨ c = .stopConfirmExpiry p ∨
      c = .restExpiry p ∨ c = .contestTimerExpiry p ∨ c = .retryHoldExpiry p) →
    Completes c s (fun t =>
      t.loader = s.loader ∧ t.ctl = s.ctl ∧ t.claims.roster = s.claims.roster ∧
      t.claims.settle = s.claims.settle ∧ t.levels.a = s.levels.a ∧ t.levels.b = s.levels.b ∧
      t.levels.lockout = s.levels.lockout ∧ t.levels.remote = s.levels.remote ∧ t.bus.onBus = s.bus.onBus ∧
      t.bus.slotOpen = s.bus.slotOpen ∧ t.bus.unacked = s.bus.unacked ∧ t.bus.window = s.bus.window ∧
      t.bus.rollTimer = s.bus.rollTimer ∧
      (∀ q : Pump, q ≠ p → t.field.pump[q] = s.field.pump[q]) ∧
      t.field = { s.field with pump := t.field.pump } ∧
      (s.ctl.mode ≠ .isolated → t.claims = s.claims) ∧
      RecordsStay (fun k => k.kind ∈ reportKinds c ∧ k.pump = some p) s t ∧
      ∀ q, q ≠ p → (s.chan q).state ≠ .idle → (s.chan q).state ≠ .queued → (s.chan q).state.inContest = false →
        s.lineQuiet q → t.request q = s.request q ∧
        ((s.chan q).state ≠ .running → t.chan q = s.chan q) ∧
        ((s.chan q).state = .running → t.chan q = { s.chan q with
          totalRun := (s.chan q).totalRun + (t.now - s.now),
          currentRun := (s.chan q).currentRun.map (· + (t.now - s.now)) }))

/-! ## Invariants -/

/-- The machine after reset satisfies every invariant below. -/
def Obligations.InvariantsHoldAtReset : Prop :=
  State.reset.TableInv ∧ State.reset.OrphanInv ∧ State.reset.faults.Wf ∧ State.reset.bus.Wf ∧
  State.reset.SlotInv ∧ State.reset.RunLineInv ∧ State.reset.LockoutInv ∧ State.reset.RequestInv ∧
  State.reset.JudgingInv ∧ State.reset.CountInv ∧ State.reset.MarksClear ∧ State.reset.LoadingInv ∧
  State.reset.AlarmInv ∧ State.reset.InUseInv ∧ State.reset.FeedbackInv ∧
  State.reset.OneContestInv

/-- Every step keeps the claim table at no more than 48 entries in strictly ascending order of owner and pump. -/
def Obligations.StepKeepsTableOrder : Prop := StepKeeps State.TableInv

/-- Every step keeps the orphan marks the marks of the silent owners. -/
def Obligations.StepKeepsOrphanMarks : Prop := StepKeeps State.OrphanInv

/-- Every step keeps the fault file at no more than eight records, no two of one key, within their ranges, keeps the
small counts within their bounds, and leaves no event over. -/
def Obligations.StepKeepsFaultFileAndCounts : Prop :=
  StepKeeps (fun s => s.faults.Wf ∧ s.CountInv ∧ s.MarksClear)

/-- Every step keeps the transmit queue within its capacity and in the order of kind priority, and the pending-ask
slot full exactly while an ANSWER waits. -/
def Obligations.StepKeepsTransmitQueue : Prop := StepKeeps (fun s => s.bus.Wf ∧ s.SlotInv)

/-- Every step keeps each run line asserted exactly in STARTING and RUNNING, the channels out of QUEUED, BIDDING,
CONTENDING and STARTING while dry-run lockout is in force, a request at exactly the channels in QUEUED, BIDDING and
CONTENDING, and bids to a judging station; with them LOADING stays at the reset values. Every step keeps the channels
out of use in DISABLED, with FEEDBACK asserted in RUNNING and LOCAL_RUN; and every step keeps at most one channel in
BIDDING or CONTENDING. -/
def Obligations.StepKeepsStartDiscipline : Prop :=
  StepKeeps (fun s => s.LoadingInv ∧ s.RunLineInv ∧ s.LockoutInv ∧ s.RequestInv ∧ s.JudgingInv) ∧
  StepKeeps (fun s => s.InUseInv ∧ s.FeedbackInv) ∧ StepKeeps State.OneContestInv

/-- Every step keeps LOADING at the reset values, and the alarm line what its mode, the pending alarm and MUTE say. -/
def Obligations.StepKeepsAlarmLine : Prop := StepKeeps (fun s => s.LoadingInv ∧ s.AlarmInv)

/-! ## Encoding -/

/-- The bytes of an own telegram, read by another station, are the command of its kind, source and body, and the body
reads back as the fields that were sent, at every value they admit. -/
def Obligations.OwnTelegramsReadBack : Prop :=
  ∀ src : Addr,
    (∀ v : VetoFields, decodeTelegram (Sent.bytes src (.veto v)) = .vetoReceived src v.bytes ∧
      decodeVeto v.bytes = some v) ∧
    (∀ d : DropFields, decodeTelegram (Sent.bytes src (.drop d)) = .dropReceived src d.bytes ∧
      decodeDrop d.bytes = some d) ∧
    (∀ r : RunFields, decodeTelegram (Sent.bytes src (.run r)) = .runReceived src r.bytes ∧
      (1 ≤ r.load → r.load ≤ 63 → decodeRun r.bytes = some r)) ∧
    (∀ c : ClaimFields, decodeTelegram (Sent.bytes src (.bid c)) = .bidReceived src c.bytes ∧
      decodeTelegram (Sent.bytes src (.commit c)) = .commitReceived src c.bytes ∧
      (1 ≤ c.load → c.load ≤ 63 → decodeClaim c.bytes = some c)) ∧
    (∀ b : RollBody, b.claims.length ≤ 6 →
      decodeTelegram (Sent.bytes src (.roll b)) = .rollReceived src b.bytes ∧
      ((∀ d ∈ b.claims, 1 ≤ d.load ∧ d.load ≤ 63) → (b.claims.map Descriptor.pump).Nodup →
        (∀ n, b.suction = .cm n → n ≤ 2000) → (∀ n, b.delivery = some (.cm n) → n ≤ 2000) →
        decodeRoll b.bytes = some b)) ∧
    ∀ b : AnswerBody, b.content.length ≤ 57 →
      decodeTelegram (Sent.bytes src (.answer b)) = .answerReceived src b.bytes
end

