-- ==== Sys2Proof/Laws/State.lean ====
section
/-! SUPPORT. The named updates of the state, one lemma per update and block they leave alone, all true by definition,
so that no later proof unfolds a record update; then what each writes in its own block. -/

namespace Sys2Proof.Machine

variable (s : State)

/-! ### setEntries -/

@[simp] theorem State.setEntries_now (es : List Entry) : (s.setEntries es).now = s.now := rfl
@[simp] theorem State.setEntries_field (es : List Entry) : (s.setEntries es).field = s.field := rfl
@[simp] theorem State.setEntries_loader (es : List Entry) : (s.setEntries es).loader = s.loader := rfl
@[simp] theorem State.setEntries_ctl (es : List Entry) : (s.setEntries es).ctl = s.ctl := rfl
@[simp] theorem State.setEntries_pumps (es : List Entry) : (s.setEntries es).pumps = s.pumps := rfl
@[simp] theorem State.setEntries_sched (es : List Entry) : (s.setEntries es).sched = s.sched := rfl
@[simp] theorem State.setEntries_levels (es : List Entry) : (s.setEntries es).levels = s.levels := rfl
@[simp] theorem State.setEntries_bus (es : List Entry) : (s.setEntries es).bus = s.bus := rfl
@[simp] theorem State.setEntries_faults (es : List Entry) : (s.setEntries es).faults = s.faults := rfl
@[simp] theorem State.setEntries_alarm (es : List Entry) : (s.setEntries es).alarm = s.alarm := rfl
@[simp] theorem State.setEntries_resp (es : List Entry) : (s.setEntries es).resp = s.resp := rfl
@[simp] theorem State.setEntries_pending (es : List Entry) : (s.setEntries es).pending = s.pending := rfl

/-! ### setQueue -/

@[simp] theorem State.setQueue_now (q : List Telegram) : (s.setQueue q).now = s.now := rfl
@[simp] theorem State.setQueue_field (q : List Telegram) : (s.setQueue q).field = s.field := rfl
@[simp] theorem State.setQueue_loader (q : List Telegram) : (s.setQueue q).loader = s.loader := rfl
@[simp] theorem State.setQueue_ctl (q : List Telegram) : (s.setQueue q).ctl = s.ctl := rfl
@[simp] theorem State.setQueue_claims (q : List Telegram) : (s.setQueue q).claims = s.claims := rfl
@[simp] theorem State.setQueue_pumps (q : List Telegram) : (s.setQueue q).pumps = s.pumps := rfl
@[simp] theorem State.setQueue_sched (q : List Telegram) : (s.setQueue q).sched = s.sched := rfl
@[simp] theorem State.setQueue_levels (q : List Telegram) : (s.setQueue q).levels = s.levels := rfl
@[simp] theorem State.setQueue_faults (q : List Telegram) : (s.setQueue q).faults = s.faults := rfl
@[simp] theorem State.setQueue_alarm (q : List Telegram) : (s.setQueue q).alarm = s.alarm := rfl
@[simp] theorem State.setQueue_resp (q : List Telegram) : (s.setQueue q).resp = s.resp := rfl
@[simp] theorem State.setQueue_pending (q : List Telegram) : (s.setQueue q).pending = s.pending := rfl

/-! ### cancel -/

@[simp] theorem State.cancel_now (q : Telegram → Bool) : (s.cancel q).now = s.now := rfl
@[simp] theorem State.cancel_field (q : Telegram → Bool) : (s.cancel q).field = s.field := rfl
@[simp] theorem State.cancel_loader (q : Telegram → Bool) : (s.cancel q).loader = s.loader := rfl
@[simp] theorem State.cancel_ctl (q : Telegram → Bool) : (s.cancel q).ctl = s.ctl := rfl
@[simp] theorem State.cancel_claims (q : Telegram → Bool) : (s.cancel q).claims = s.claims := rfl
@[simp] theorem State.cancel_pumps (q : Telegram → Bool) : (s.cancel q).pumps = s.pumps := rfl
@[simp] theorem State.cancel_sched (q : Telegram → Bool) : (s.cancel q).sched = s.sched := rfl
@[simp] theorem State.cancel_levels (q : Telegram → Bool) : (s.cancel q).levels = s.levels := rfl
@[simp] theorem State.cancel_faults (q : Telegram → Bool) : (s.cancel q).faults = s.faults := rfl
@[simp] theorem State.cancel_alarm (q : Telegram → Bool) : (s.cancel q).alarm = s.alarm := rfl
@[simp] theorem State.cancel_resp (q : Telegram → Bool) : (s.cancel q).resp = s.resp := rfl
@[simp] theorem State.cancel_pending (q : Telegram → Bool) : (s.cancel q).pending = s.pending := rfl

/-! ### hold -/

@[simp] theorem State.hold_now (x : Telegram) : (s.hold x).now = s.now := rfl
@[simp] theorem State.hold_field (x : Telegram) : (s.hold x).field = s.field := rfl
@[simp] theorem State.hold_loader (x : Telegram) : (s.hold x).loader = s.loader := rfl
@[simp] theorem State.hold_ctl (x : Telegram) : (s.hold x).ctl = s.ctl := rfl
@[simp] theorem State.hold_claims (x : Telegram) : (s.hold x).claims = s.claims := rfl
@[simp] theorem State.hold_pumps (x : Telegram) : (s.hold x).pumps = s.pumps := rfl
@[simp] theorem State.hold_sched (x : Telegram) : (s.hold x).sched = s.sched := rfl
@[simp] theorem State.hold_levels (x : Telegram) : (s.hold x).levels = s.levels := rfl
@[simp] theorem State.hold_faults (x : Telegram) : (s.hold x).faults = s.faults := rfl
@[simp] theorem State.hold_alarm (x : Telegram) : (s.hold x).alarm = s.alarm := rfl
@[simp] theorem State.hold_resp (x : Telegram) : (s.hold x).resp = s.resp := rfl
@[simp] theorem State.hold_pending (x : Telegram) : (s.hold x).pending = s.pending := rfl

/-! ### count -/

@[simp] theorem State.count_now (f : Counters → Counters) : (s.count f).now = s.now := rfl
@[simp] theorem State.count_field (f : Counters → Counters) : (s.count f).field = s.field := rfl
@[simp] theorem State.count_loader (f : Counters → Counters) : (s.count f).loader = s.loader := rfl
@[simp] theorem State.count_ctl (f : Counters → Counters) : (s.count f).ctl = s.ctl := rfl
@[simp] theorem State.count_claims (f : Counters → Counters) : (s.count f).claims = s.claims := rfl
@[simp] theorem State.count_pumps (f : Counters → Counters) : (s.count f).pumps = s.pumps := rfl
@[simp] theorem State.count_sched (f : Counters → Counters) : (s.count f).sched = s.sched := rfl
@[simp] theorem State.count_levels (f : Counters → Counters) : (s.count f).levels = s.levels := rfl
@[simp] theorem State.count_bus (f : Counters → Counters) : (s.count f).bus = s.bus := rfl
@[simp] theorem State.count_faults (f : Counters → Counters) : (s.count f).faults = s.faults := rfl
@[simp] theorem State.count_alarm (f : Counters → Counters) : (s.count f).alarm = s.alarm := rfl
@[simp] theorem State.count_pending (f : Counters → Counters) : (s.count f).pending = s.pending := rfl

/-! ### countLost -/

@[simp] theorem State.countLost_now : (s.countLost).now = s.now := rfl
@[simp] theorem State.countLost_field : (s.countLost).field = s.field := rfl
@[simp] theorem State.countLost_loader : (s.countLost).loader = s.loader := rfl
@[simp] theorem State.countLost_ctl : (s.countLost).ctl = s.ctl := rfl
@[simp] theorem State.countLost_claims : (s.countLost).claims = s.claims := rfl
@[simp] theorem State.countLost_pumps : (s.countLost).pumps = s.pumps := rfl
@[simp] theorem State.countLost_sched : (s.countLost).sched = s.sched := rfl
@[simp] theorem State.countLost_levels : (s.countLost).levels = s.levels := rfl
@[simp] theorem State.countLost_bus : (s.countLost).bus = s.bus := rfl
@[simp] theorem State.countLost_faults : (s.countLost).faults = s.faults := rfl
@[simp] theorem State.countLost_alarm : (s.countLost).alarm = s.alarm := rfl
@[simp] theorem State.countLost_pending : (s.countLost).pending = s.pending := rfl

/-! ### clearSlot -/

@[simp] theorem State.clearSlot_now : (s.clearSlot).now = s.now := rfl
@[simp] theorem State.clearSlot_field : (s.clearSlot).field = s.field := rfl
@[simp] theorem State.clearSlot_loader : (s.clearSlot).loader = s.loader := rfl
@[simp] theorem State.clearSlot_ctl : (s.clearSlot).ctl = s.ctl := rfl
@[simp] theorem State.clearSlot_claims : (s.clearSlot).claims = s.claims := rfl
@[simp] theorem State.clearSlot_pumps : (s.clearSlot).pumps = s.pumps := rfl
@[simp] theorem State.clearSlot_sched : (s.clearSlot).sched = s.sched := rfl
@[simp] theorem State.clearSlot_levels : (s.clearSlot).levels = s.levels := rfl
@[simp] theorem State.clearSlot_bus : (s.clearSlot).bus = s.bus := rfl
@[simp] theorem State.clearSlot_faults : (s.clearSlot).faults = s.faults := rfl
@[simp] theorem State.clearSlot_alarm : (s.clearSlot).alarm = s.alarm := rfl
@[simp] theorem State.clearSlot_pending : (s.clearSlot).pending = s.pending := rfl

/-! ### modChan -/

@[simp] theorem State.modChan_now (p : Pump) (f : Channel → Channel) : (s.modChan p f).now = s.now := rfl
@[simp] theorem State.modChan_field (p : Pump) (f : Channel → Channel) : (s.modChan p f).field = s.field := rfl
@[simp] theorem State.modChan_loader (p : Pump) (f : Channel → Channel) : (s.modChan p f).loader = s.loader := rfl
@[simp] theorem State.modChan_ctl (p : Pump) (f : Channel → Channel) : (s.modChan p f).ctl = s.ctl := rfl
@[simp] theorem State.modChan_claims (p : Pump) (f : Channel → Channel) : (s.modChan p f).claims = s.claims := rfl
@[simp] theorem State.modChan_sched (p : Pump) (f : Channel → Channel) : (s.modChan p f).sched = s.sched := rfl
@[simp] theorem State.modChan_levels (p : Pump) (f : Channel → Channel) : (s.modChan p f).levels = s.levels := rfl
@[simp] theorem State.modChan_bus (p : Pump) (f : Channel → Channel) : (s.modChan p f).bus = s.bus := rfl
@[simp] theorem State.modChan_faults (p : Pump) (f : Channel → Channel) : (s.modChan p f).faults = s.faults := rfl
@[simp] theorem State.modChan_alarm (p : Pump) (f : Channel → Channel) : (s.modChan p f).alarm = s.alarm := rfl
@[simp] theorem State.modChan_resp (p : Pump) (f : Channel → Channel) : (s.modChan p f).resp = s.resp := rfl
@[simp] theorem State.modChan_pending (p : Pump) (f : Channel → Channel) : (s.modChan p f).pending = s.pending := rfl

/-! ### setRequest -/

@[simp] theorem State.setRequest_now (p : Pump) (r : Option Request) : (s.setRequest p r).now = s.now := rfl
@[simp] theorem State.setRequest_field (p : Pump) (r : Option Request) : (s.setRequest p r).field = s.field := rfl
@[simp] theorem State.setRequest_loader (p : Pump) (r : Option Request) : (s.setRequest p r).loader = s.loader := rfl
@[simp] theorem State.setRequest_ctl (p : Pump) (r : Option Request) : (s.setRequest p r).ctl = s.ctl := rfl
@[simp] theorem State.setRequest_claims (p : Pump) (r : Option Request) : (s.setRequest p r).claims = s.claims := rfl
@[simp] theorem State.setRequest_pumps (p : Pump) (r : Option Request) : (s.setRequest p r).pumps = s.pumps := rfl
@[simp] theorem State.setRequest_levels (p : Pump) (r : Option Request) : (s.setRequest p r).levels = s.levels := rfl
@[simp] theorem State.setRequest_bus (p : Pump) (r : Option Request) : (s.setRequest p r).bus = s.bus := rfl
@[simp] theorem State.setRequest_faults (p : Pump) (r : Option Request) : (s.setRequest p r).faults = s.faults := rfl
@[simp] theorem State.setRequest_alarm (p : Pump) (r : Option Request) : (s.setRequest p r).alarm = s.alarm := rfl
@[simp] theorem State.setRequest_resp (p : Pump) (r : Option Request) : (s.setRequest p r).resp = s.resp := rfl
@[simp] theorem State.setRequest_pending (p : Pump) (r : Option Request) : (s.setRequest p r).pending = s.pending := rfl

/-! ### setHold -/

@[simp] theorem State.setHold_now (p : Pump) : (s.setHold p).now = s.now := rfl
@[simp] theorem State.setHold_field (p : Pump) : (s.setHold p).field = s.field := rfl
@[simp] theorem State.setHold_loader (p : Pump) : (s.setHold p).loader = s.loader := rfl
@[simp] theorem State.setHold_ctl (p : Pump) : (s.setHold p).ctl = s.ctl := rfl
@[simp] theorem State.setHold_claims (p : Pump) : (s.setHold p).claims = s.claims := rfl
@[simp] theorem State.setHold_pumps (p : Pump) : (s.setHold p).pumps = s.pumps := rfl
@[simp] theorem State.setHold_levels (p : Pump) : (s.setHold p).levels = s.levels := rfl
@[simp] theorem State.setHold_bus (p : Pump) : (s.setHold p).bus = s.bus := rfl
@[simp] theorem State.setHold_faults (p : Pump) : (s.setHold p).faults = s.faults := rfl
@[simp] theorem State.setHold_alarm (p : Pump) : (s.setHold p).alarm = s.alarm := rfl
@[simp] theorem State.setHold_resp (p : Pump) : (s.setHold p).resp = s.resp := rfl
@[simp] theorem State.setHold_pending (p : Pump) : (s.setHold p).pending = s.pending := rfl

/-! ### noteEval -/

@[simp] theorem State.noteEval_now : (s.noteEval).now = s.now := rfl
@[simp] theorem State.noteEval_field : (s.noteEval).field = s.field := rfl
@[simp] theorem State.noteEval_loader : (s.noteEval).loader = s.loader := rfl
@[simp] theorem State.noteEval_ctl : (s.noteEval).ctl = s.ctl := rfl
@[simp] theorem State.noteEval_claims : (s.noteEval).claims = s.claims := rfl
@[simp] theorem State.noteEval_pumps : (s.noteEval).pumps = s.pumps := rfl
@[simp] theorem State.noteEval_levels : (s.noteEval).levels = s.levels := rfl
@[simp] theorem State.noteEval_bus : (s.noteEval).bus = s.bus := rfl
@[simp] theorem State.noteEval_faults : (s.noteEval).faults = s.faults := rfl
@[simp] theorem State.noteEval_alarm : (s.noteEval).alarm = s.alarm := rfl
@[simp] theorem State.noteEval_resp : (s.noteEval).resp = s.resp := rfl
@[simp] theorem State.noteEval_pending : (s.noteEval).pending = s.pending := rfl

/-! ### notePick -/

@[simp] theorem State.notePick_now : (s.notePick).now = s.now := rfl
@[simp] theorem State.notePick_field : (s.notePick).field = s.field := rfl
@[simp] theorem State.notePick_loader : (s.notePick).loader = s.loader := rfl
@[simp] theorem State.notePick_ctl : (s.notePick).ctl = s.ctl := rfl
@[simp] theorem State.notePick_claims : (s.notePick).claims = s.claims := rfl
@[simp] theorem State.notePick_pumps : (s.notePick).pumps = s.pumps := rfl
@[simp] theorem State.notePick_levels : (s.notePick).levels = s.levels := rfl
@[simp] theorem State.notePick_bus : (s.notePick).bus = s.bus := rfl
@[simp] theorem State.notePick_faults : (s.notePick).faults = s.faults := rfl
@[simp] theorem State.notePick_alarm : (s.notePick).alarm = s.alarm := rfl
@[simp] theorem State.notePick_resp : (s.notePick).resp = s.resp := rfl
@[simp] theorem State.notePick_pending : (s.notePick).pending = s.pending := rfl

/-! ### noteMove -/

@[simp] theorem State.noteMove_now (old new : ChanState) : (s.noteMove old new).now = s.now := rfl
@[simp] theorem State.noteMove_field (old new : ChanState) : (s.noteMove old new).field = s.field := rfl
@[simp] theorem State.noteMove_loader (old new : ChanState) : (s.noteMove old new).loader = s.loader := rfl
@[simp] theorem State.noteMove_ctl (old new : ChanState) : (s.noteMove old new).ctl = s.ctl := rfl
@[simp] theorem State.noteMove_claims (old new : ChanState) : (s.noteMove old new).claims = s.claims := rfl
@[simp] theorem State.noteMove_pumps (old new : ChanState) : (s.noteMove old new).pumps = s.pumps := rfl
@[simp] theorem State.noteMove_levels (old new : ChanState) : (s.noteMove old new).levels = s.levels := rfl
@[simp] theorem State.noteMove_bus (old new : ChanState) : (s.noteMove old new).bus = s.bus := rfl
@[simp] theorem State.noteMove_faults (old new : ChanState) : (s.noteMove old new).faults = s.faults := rfl
@[simp] theorem State.noteMove_alarm (old new : ChanState) : (s.noteMove old new).alarm = s.alarm := rfl
@[simp] theorem State.noteMove_resp (old new : ChanState) : (s.noteMove old new).resp = s.resp := rfl
@[simp] theorem State.noteMove_pending (old new : ChanState) : (s.noteMove old new).pending = s.pending := rfl

/-! ### clearHolds -/

@[simp] theorem State.clearHolds_now : (s.clearHolds).now = s.now := rfl
@[simp] theorem State.clearHolds_field : (s.clearHolds).field = s.field := rfl
@[simp] theorem State.clearHolds_loader : (s.clearHolds).loader = s.loader := rfl
@[simp] theorem State.clearHolds_ctl : (s.clearHolds).ctl = s.ctl := rfl
@[simp] theorem State.clearHolds_claims : (s.clearHolds).claims = s.claims := rfl
@[simp] theorem State.clearHolds_pumps : (s.clearHolds).pumps = s.pumps := rfl
@[simp] theorem State.clearHolds_levels : (s.clearHolds).levels = s.levels := rfl
@[simp] theorem State.clearHolds_bus : (s.clearHolds).bus = s.bus := rfl
@[simp] theorem State.clearHolds_faults : (s.clearHolds).faults = s.faults := rfl
@[simp] theorem State.clearHolds_alarm : (s.clearHolds).alarm = s.alarm := rfl
@[simp] theorem State.clearHolds_resp : (s.clearHolds).resp = s.resp := rfl
@[simp] theorem State.clearHolds_pending : (s.clearHolds).pending = s.pending := rfl

/-! ### clearHold -/

@[simp] theorem State.clearHold_now (p : Pump) : (s.clearHold p).now = s.now := rfl
@[simp] theorem State.clearHold_field (p : Pump) : (s.clearHold p).field = s.field := rfl
@[simp] theorem State.clearHold_loader (p : Pump) : (s.clearHold p).loader = s.loader := rfl
@[simp] theorem State.clearHold_ctl (p : Pump) : (s.clearHold p).ctl = s.ctl := rfl
@[simp] theorem State.clearHold_claims (p : Pump) : (s.clearHold p).claims = s.claims := rfl
@[simp] theorem State.clearHold_pumps (p : Pump) : (s.clearHold p).pumps = s.pumps := rfl
@[simp] theorem State.clearHold_levels (p : Pump) : (s.clearHold p).levels = s.levels := rfl
@[simp] theorem State.clearHold_bus (p : Pump) : (s.clearHold p).bus = s.bus := rfl
@[simp] theorem State.clearHold_faults (p : Pump) : (s.clearHold p).faults = s.faults := rfl
@[simp] theorem State.clearHold_alarm (p : Pump) : (s.clearHold p).alarm = s.alarm := rfl
@[simp] theorem State.clearHold_resp (p : Pump) : (s.clearHold p).resp = s.resp := rfl
@[simp] theorem State.clearHold_pending (p : Pump) : (s.clearHold p).pending = s.pending := rfl

/-! ### settleMain -/

@[simp] theorem State.settleMain_now (m : Main) : (s.settleMain m).now = s.now := rfl
@[simp] theorem State.settleMain_field (m : Main) : (s.settleMain m).field = s.field := rfl
@[simp] theorem State.settleMain_loader (m : Main) : (s.settleMain m).loader = s.loader := rfl
@[simp] theorem State.settleMain_ctl (m : Main) : (s.settleMain m).ctl = s.ctl := rfl
@[simp] theorem State.settleMain_pumps (m : Main) : (s.settleMain m).pumps = s.pumps := rfl
@[simp] theorem State.settleMain_sched (m : Main) : (s.settleMain m).sched = s.sched := rfl
@[simp] theorem State.settleMain_levels (m : Main) : (s.settleMain m).levels = s.levels := rfl
@[simp] theorem State.settleMain_bus (m : Main) : (s.settleMain m).bus = s.bus := rfl
@[simp] theorem State.settleMain_faults (m : Main) : (s.settleMain m).faults = s.faults := rfl
@[simp] theorem State.settleMain_alarm (m : Main) : (s.settleMain m).alarm = s.alarm := rfl
@[simp] theorem State.settleMain_resp (m : Main) : (s.settleMain m).resp = s.resp := rfl
@[simp] theorem State.settleMain_pending (m : Main) : (s.settleMain m).pending = s.pending := rfl

/-! ### setRoster -/

@[simp] theorem State.setRoster_now (a : Station) (r : RosterRecord) : (s.setRoster a r).now = s.now := rfl
@[simp] theorem State.setRoster_field (a : Station) (r : RosterRecord) : (s.setRoster a r).field = s.field := rfl
@[simp] theorem State.setRoster_loader (a : Station) (r : RosterRecord) : (s.setRoster a r).loader = s.loader := rfl
@[simp] theorem State.setRoster_ctl (a : Station) (r : RosterRecord) : (s.setRoster a r).ctl = s.ctl := rfl
@[simp] theorem State.setRoster_pumps (a : Station) (r : RosterRecord) : (s.setRoster a r).pumps = s.pumps := rfl
@[simp] theorem State.setRoster_sched (a : Station) (r : RosterRecord) : (s.setRoster a r).sched = s.sched := rfl
@[simp] theorem State.setRoster_levels (a : Station) (r : RosterRecord) : (s.setRoster a r).levels = s.levels := rfl
@[simp] theorem State.setRoster_bus (a : Station) (r : RosterRecord) : (s.setRoster a r).bus = s.bus := rfl
@[simp] theorem State.setRoster_faults (a : Station) (r : RosterRecord) : (s.setRoster a r).faults = s.faults := rfl
@[simp] theorem State.setRoster_alarm (a : Station) (r : RosterRecord) : (s.setRoster a r).alarm = s.alarm := rfl
@[simp] theorem State.setRoster_resp (a : Station) (r : RosterRecord) : (s.setRoster a r).resp = s.resp := rfl
@[simp] theorem State.setRoster_pending (a : Station) (r : RosterRecord) : (s.setRoster a r).pending = s.pending := rfl

/-! ### markOrphans -/

@[simp] theorem State.markOrphans_now (a : Station) (b : Bool) : (s.markOrphans a b).now = s.now := rfl
@[simp] theorem State.markOrphans_field (a : Station) (b : Bool) : (s.markOrphans a b).field = s.field := rfl
@[simp] theorem State.markOrphans_loader (a : Station) (b : Bool) : (s.markOrphans a b).loader = s.loader := rfl
@[simp] theorem State.markOrphans_ctl (a : Station) (b : Bool) : (s.markOrphans a b).ctl = s.ctl := rfl
@[simp] theorem State.markOrphans_pumps (a : Station) (b : Bool) : (s.markOrphans a b).pumps = s.pumps := rfl
@[simp] theorem State.markOrphans_sched (a : Station) (b : Bool) : (s.markOrphans a b).sched = s.sched := rfl
@[simp] theorem State.markOrphans_levels (a : Station) (b : Bool) : (s.markOrphans a b).levels = s.levels := rfl
@[simp] theorem State.markOrphans_bus (a : Station) (b : Bool) : (s.markOrphans a b).bus = s.bus := rfl
@[simp] theorem State.markOrphans_faults (a : Station) (b : Bool) : (s.markOrphans a b).faults = s.faults := rfl
@[simp] theorem State.markOrphans_alarm (a : Station) (b : Bool) : (s.markOrphans a b).alarm = s.alarm := rfl
@[simp] theorem State.markOrphans_resp (a : Station) (b : Bool) : (s.markOrphans a b).resp = s.resp := rfl
@[simp] theorem State.markOrphans_pending (a : Station) (b : Bool) : (s.markOrphans a b).pending = s.pending := rfl

/-! ### setMode -/

@[simp] theorem State.setMode_now (m : StationMode) : (s.setMode m).now = s.now := rfl
@[simp] theorem State.setMode_field (m : StationMode) : (s.setMode m).field = s.field := rfl
@[simp] theorem State.setMode_loader (m : StationMode) : (s.setMode m).loader = s.loader := rfl
@[simp] theorem State.setMode_claims (m : StationMode) : (s.setMode m).claims = s.claims := rfl
@[simp] theorem State.setMode_pumps (m : StationMode) : (s.setMode m).pumps = s.pumps := rfl
@[simp] theorem State.setMode_sched (m : StationMode) : (s.setMode m).sched = s.sched := rfl
@[simp] theorem State.setMode_levels (m : StationMode) : (s.setMode m).levels = s.levels := rfl
@[simp] theorem State.setMode_bus (m : StationMode) : (s.setMode m).bus = s.bus := rfl
@[simp] theorem State.setMode_faults (m : StationMode) : (s.setMode m).faults = s.faults := rfl
@[simp] theorem State.setMode_alarm (m : StationMode) : (s.setMode m).alarm = s.alarm := rfl
@[simp] theorem State.setMode_resp (m : StationMode) : (s.setMode m).resp = s.resp := rfl
@[simp] theorem State.setMode_pending (m : StationMode) : (s.setMode m).pending = s.pending := rfl

/-! ### setMismatch -/

@[simp] theorem State.setMismatch_now (a : Option Station) : (s.setMismatch a).now = s.now := rfl
@[simp] theorem State.setMismatch_field (a : Option Station) : (s.setMismatch a).field = s.field := rfl
@[simp] theorem State.setMismatch_loader (a : Option Station) : (s.setMismatch a).loader = s.loader := rfl
@[simp] theorem State.setMismatch_claims (a : Option Station) : (s.setMismatch a).claims = s.claims := rfl
@[simp] theorem State.setMismatch_pumps (a : Option Station) : (s.setMismatch a).pumps = s.pumps := rfl
@[simp] theorem State.setMismatch_sched (a : Option Station) : (s.setMismatch a).sched = s.sched := rfl
@[simp] theorem State.setMismatch_levels (a : Option Station) : (s.setMismatch a).levels = s.levels := rfl
@[simp] theorem State.setMismatch_bus (a : Option Station) : (s.setMismatch a).bus = s.bus := rfl
@[simp] theorem State.setMismatch_faults (a : Option Station) : (s.setMismatch a).faults = s.faults := rfl
@[simp] theorem State.setMismatch_alarm (a : Option Station) : (s.setMismatch a).alarm = s.alarm := rfl
@[simp] theorem State.setMismatch_resp (a : Option Station) : (s.setMismatch a).resp = s.resp := rfl
@[simp] theorem State.setMismatch_pending (a : Option Station) : (s.setMismatch a).pending = s.pending := rfl

/-! ### setUnacked -/

@[simp] theorem State.setUnacked_now (n : Nat) : (s.setUnacked n).now = s.now := rfl
@[simp] theorem State.setUnacked_field (n : Nat) : (s.setUnacked n).field = s.field := rfl
@[simp] theorem State.setUnacked_loader (n : Nat) : (s.setUnacked n).loader = s.loader := rfl
@[simp] theorem State.setUnacked_ctl (n : Nat) : (s.setUnacked n).ctl = s.ctl := rfl
@[simp] theorem State.setUnacked_claims (n : Nat) : (s.setUnacked n).claims = s.claims := rfl
@[simp] theorem State.setUnacked_pumps (n : Nat) : (s.setUnacked n).pumps = s.pumps := rfl
@[simp] theorem State.setUnacked_sched (n : Nat) : (s.setUnacked n).sched = s.sched := rfl
@[simp] theorem State.setUnacked_levels (n : Nat) : (s.setUnacked n).levels = s.levels := rfl
@[simp] theorem State.setUnacked_faults (n : Nat) : (s.setUnacked n).faults = s.faults := rfl
@[simp] theorem State.setUnacked_alarm (n : Nat) : (s.setUnacked n).alarm = s.alarm := rfl
@[simp] theorem State.setUnacked_resp (n : Nat) : (s.setUnacked n).resp = s.resp := rfl
@[simp] theorem State.setUnacked_pending (n : Nat) : (s.setUnacked n).pending = s.pending := rfl

/-! ### setLines -/

@[simp] theorem State.setLines_now (p : Pump) (l : PumpLines) : (s.setLines p l).now = s.now := rfl
@[simp] theorem State.setLines_loader (p : Pump) (l : PumpLines) : (s.setLines p l).loader = s.loader := rfl
@[simp] theorem State.setLines_ctl (p : Pump) (l : PumpLines) : (s.setLines p l).ctl = s.ctl := rfl
@[simp] theorem State.setLines_claims (p : Pump) (l : PumpLines) : (s.setLines p l).claims = s.claims := rfl
@[simp] theorem State.setLines_pumps (p : Pump) (l : PumpLines) : (s.setLines p l).pumps = s.pumps := rfl
@[simp] theorem State.setLines_sched (p : Pump) (l : PumpLines) : (s.setLines p l).sched = s.sched := rfl
@[simp] theorem State.setLines_levels (p : Pump) (l : PumpLines) : (s.setLines p l).levels = s.levels := rfl
@[simp] theorem State.setLines_bus (p : Pump) (l : PumpLines) : (s.setLines p l).bus = s.bus := rfl
@[simp] theorem State.setLines_faults (p : Pump) (l : PumpLines) : (s.setLines p l).faults = s.faults := rfl
@[simp] theorem State.setLines_alarm (p : Pump) (l : PumpLines) : (s.setLines p l).alarm = s.alarm := rfl
@[simp] theorem State.setLines_resp (p : Pump) (l : PumpLines) : (s.setLines p l).resp = s.resp := rfl
@[simp] theorem State.setLines_pending (p : Pump) (l : PumpLines) : (s.setLines p l).pending = s.pending := rfl

/-! ### setGang -/

@[simp] theorem State.setGang_now (b : Bool) : (s.setGang b).now = s.now := rfl
@[simp] theorem State.setGang_loader (b : Bool) : (s.setGang b).loader = s.loader := rfl
@[simp] theorem State.setGang_ctl (b : Bool) : (s.setGang b).ctl = s.ctl := rfl
@[simp] theorem State.setGang_claims (b : Bool) : (s.setGang b).claims = s.claims := rfl
@[simp] theorem State.setGang_pumps (b : Bool) : (s.setGang b).pumps = s.pumps := rfl
@[simp] theorem State.setGang_sched (b : Bool) : (s.setGang b).sched = s.sched := rfl
@[simp] theorem State.setGang_levels (b : Bool) : (s.setGang b).levels = s.levels := rfl
@[simp] theorem State.setGang_bus (b : Bool) : (s.setGang b).bus = s.bus := rfl
@[simp] theorem State.setGang_faults (b : Bool) : (s.setGang b).faults = s.faults := rfl
@[simp] theorem State.setGang_alarm (b : Bool) : (s.setGang b).alarm = s.alarm := rfl
@[simp] theorem State.setGang_resp (b : Bool) : (s.setGang b).resp = s.resp := rfl
@[simp] theorem State.setGang_pending (b : Bool) : (s.setGang b).pending = s.pending := rfl

/-! ### startPulse -/

@[simp] theorem State.startPulse_now : (s.startPulse).now = s.now := rfl
@[simp] theorem State.startPulse_field : (s.startPulse).field = s.field := rfl
@[simp] theorem State.startPulse_loader : (s.startPulse).loader = s.loader := rfl
@[simp] theorem State.startPulse_ctl : (s.startPulse).ctl = s.ctl := rfl
@[simp] theorem State.startPulse_claims : (s.startPulse).claims = s.claims := rfl
@[simp] theorem State.startPulse_pumps : (s.startPulse).pumps = s.pumps := rfl
@[simp] theorem State.startPulse_sched : (s.startPulse).sched = s.sched := rfl
@[simp] theorem State.startPulse_levels : (s.startPulse).levels = s.levels := rfl
@[simp] theorem State.startPulse_bus : (s.startPulse).bus = s.bus := rfl
@[simp] theorem State.startPulse_faults : (s.startPulse).faults = s.faults := rfl
@[simp] theorem State.startPulse_resp : (s.startPulse).resp = s.resp := rfl
@[simp] theorem State.startPulse_pending : (s.startPulse).pending = s.pending := rfl

/-! ### advance -/

@[simp] theorem State.advance_field (d : Nat) : (s.advance d).field = s.field := rfl
@[simp] theorem State.advance_loader (d : Nat) : (s.advance d).loader = s.loader := rfl
@[simp] theorem State.advance_ctl (d : Nat) : (s.advance d).ctl = s.ctl := rfl
@[simp] theorem State.advance_claims (d : Nat) : (s.advance d).claims = s.claims := rfl
@[simp] theorem State.advance_sched (d : Nat) : (s.advance d).sched = s.sched := rfl
@[simp] theorem State.advance_levels (d : Nat) : (s.advance d).levels = s.levels := rfl
@[simp] theorem State.advance_bus (d : Nat) : (s.advance d).bus = s.bus := rfl
@[simp] theorem State.advance_faults (d : Nat) : (s.advance d).faults = s.faults := rfl
@[simp] theorem State.advance_alarm (d : Nat) : (s.advance d).alarm = s.alarm := rfl
@[simp] theorem State.advance_resp (d : Nat) : (s.advance d).resp = s.resp := rfl
@[simp] theorem State.advance_pending (d : Nat) : (s.advance d).pending = s.pending := rfl

/-! ### reach -/

@[simp] theorem State.reach_field (m : Nat) : (s.reach m).field = s.field := rfl
@[simp] theorem State.reach_loader (m : Nat) : (s.reach m).loader = s.loader := rfl
@[simp] theorem State.reach_ctl (m : Nat) : (s.reach m).ctl = s.ctl := rfl
@[simp] theorem State.reach_claims (m : Nat) : (s.reach m).claims = s.claims := rfl
@[simp] theorem State.reach_sched (m : Nat) : (s.reach m).sched = s.sched := rfl
@[simp] theorem State.reach_levels (m : Nat) : (s.reach m).levels = s.levels := rfl
@[simp] theorem State.reach_bus (m : Nat) : (s.reach m).bus = s.bus := rfl
@[simp] theorem State.reach_faults (m : Nat) : (s.reach m).faults = s.faults := rfl
@[simp] theorem State.reach_alarm (m : Nat) : (s.reach m).alarm = s.alarm := rfl
@[simp] theorem State.reach_resp (m : Nat) : (s.reach m).resp = s.resp := rfl
@[simp] theorem State.reach_pending (m : Nat) : (s.reach m).pending = s.pending := rfl

/-! ### withPending -/

@[simp] theorem State.withPending_now (q : List Instr) : (s.withPending q).now = s.now := rfl
@[simp] theorem State.withPending_field (q : List Instr) : (s.withPending q).field = s.field := rfl
@[simp] theorem State.withPending_loader (q : List Instr) : (s.withPending q).loader = s.loader := rfl
@[simp] theorem State.withPending_ctl (q : List Instr) : (s.withPending q).ctl = s.ctl := rfl
@[simp] theorem State.withPending_claims (q : List Instr) : (s.withPending q).claims = s.claims := rfl
@[simp] theorem State.withPending_pumps (q : List Instr) : (s.withPending q).pumps = s.pumps := rfl
@[simp] theorem State.withPending_sched (q : List Instr) : (s.withPending q).sched = s.sched := rfl
@[simp] theorem State.withPending_levels (q : List Instr) : (s.withPending q).levels = s.levels := rfl
@[simp] theorem State.withPending_bus (q : List Instr) : (s.withPending q).bus = s.bus := rfl
@[simp] theorem State.withPending_faults (q : List Instr) : (s.withPending q).faults = s.faults := rfl
@[simp] theorem State.withPending_alarm (q : List Instr) : (s.withPending q).alarm = s.alarm := rfl
@[simp] theorem State.withPending_resp (q : List Instr) : (s.withPending q).resp = s.resp := rfl

/-! ### obeyHold -/

@[simp] theorem State.obeyHold_now : (s.obeyHold).now = s.now := rfl
@[simp] theorem State.obeyHold_field : (s.obeyHold).field = s.field := rfl
@[simp] theorem State.obeyHold_loader : (s.obeyHold).loader = s.loader := rfl
@[simp] theorem State.obeyHold_claims : (s.obeyHold).claims = s.claims := rfl
@[simp] theorem State.obeyHold_pumps : (s.obeyHold).pumps = s.pumps := rfl
@[simp] theorem State.obeyHold_sched : (s.obeyHold).sched = s.sched := rfl
@[simp] theorem State.obeyHold_levels : (s.obeyHold).levels = s.levels := rfl
@[simp] theorem State.obeyHold_bus : (s.obeyHold).bus = s.bus := rfl
@[simp] theorem State.obeyHold_faults : (s.obeyHold).faults = s.faults := rfl
@[simp] theorem State.obeyHold_alarm : (s.obeyHold).alarm = s.alarm := rfl
@[simp] theorem State.obeyHold_resp : (s.obeyHold).resp = s.resp := rfl
@[simp] theorem State.obeyHold_pending : (s.obeyHold).pending = s.pending := rfl

/-! ### muteLine -/

@[simp] theorem State.muteLine_now : (s.muteLine).now = s.now := rfl
@[simp] theorem State.muteLine_field : (s.muteLine).field = s.field := rfl
@[simp] theorem State.muteLine_loader : (s.muteLine).loader = s.loader := rfl
@[simp] theorem State.muteLine_ctl : (s.muteLine).ctl = s.ctl := rfl
@[simp] theorem State.muteLine_claims : (s.muteLine).claims = s.claims := rfl
@[simp] theorem State.muteLine_pumps : (s.muteLine).pumps = s.pumps := rfl
@[simp] theorem State.muteLine_sched : (s.muteLine).sched = s.sched := rfl
@[simp] theorem State.muteLine_levels : (s.muteLine).levels = s.levels := rfl
@[simp] theorem State.muteLine_bus : (s.muteLine).bus = s.bus := rfl
@[simp] theorem State.muteLine_faults : (s.muteLine).faults = s.faults := rfl
@[simp] theorem State.muteLine_resp : (s.muteLine).resp = s.resp := rfl
@[simp] theorem State.muteLine_pending : (s.muteLine).pending = s.pending := rfl

/-! ## What the updates write -/

@[simp] theorem State.setEntries_entries (es : List Entry) : (s.setEntries es).claims.entries = es := rfl
@[simp] theorem State.setEntries_roster (es : List Entry) : (s.setEntries es).claims.roster = s.claims.roster := rfl
@[simp] theorem State.setEntries_settle (es : List Entry) : (s.setEntries es).claims.settle = s.claims.settle := rfl
@[simp] theorem State.setEntries_full (es : List Entry) : (s.setEntries es).claims.full = s.claims.full := rfl
@[simp] theorem State.setRoster_entries (a : Station) (r : RosterRecord) :
    (s.setRoster a r).claims.entries = s.claims.entries := rfl
@[simp] theorem State.setRoster_settle (a : Station) (r : RosterRecord) :
    (s.setRoster a r).claims.settle = s.claims.settle := rfl
@[simp] theorem State.setRoster_full (a : Station) (r : RosterRecord) :
    (s.setRoster a r).claims.full = s.claims.full := rfl
@[simp] theorem State.settleMain_entries (m : Main) : (s.settleMain m).claims.entries = s.claims.entries := rfl
@[simp] theorem State.settleMain_roster (m : Main) : (s.settleMain m).claims.roster = s.claims.roster := rfl
@[simp] theorem State.settleMain_full (m : Main) : (s.settleMain m).claims.full = s.claims.full := rfl
@[simp] theorem State.markOrphans_roster (a : Station) (b : Bool) :
    (s.markOrphans a b).claims.roster = s.claims.roster := rfl
@[simp] theorem State.markOrphans_settle (a : Station) (b : Bool) :
    (s.markOrphans a b).claims.settle = s.claims.settle := rfl
@[simp] theorem State.markOrphans_full (a : Station) (b : Bool) :
    (s.markOrphans a b).claims.full = s.claims.full := rfl
@[simp] theorem State.setQueue_queue (q : List Telegram) : (s.setQueue q).bus.queue = q := rfl
@[simp] theorem State.setQueue_onBus (q : List Telegram) : (s.setQueue q).bus.onBus = s.bus.onBus := rfl
@[simp] theorem State.setQueue_held (q : List Telegram) : (s.setQueue q).bus.held = s.bus.held := rfl
@[simp] theorem State.cancel_onBus (q : Telegram → Bool) : (s.cancel q).bus.onBus = s.bus.onBus := rfl
@[simp] theorem State.hold_queue (x : Telegram) : (s.hold x).bus.queue = s.bus.queue := rfl
@[simp] theorem State.hold_onBus (x : Telegram) : (s.hold x).bus.onBus = s.bus.onBus := rfl
@[simp] theorem State.count_slot (f : Counters → Counters) : (s.count f).resp.slot = s.resp.slot := rfl
@[simp] theorem State.count_counters (f : Counters → Counters) :
    (s.count f).resp.counters = f s.resp.counters := rfl
@[simp] theorem State.clearSlot_slot : s.clearSlot.resp.slot = none := rfl
@[simp] theorem State.clearSlot_counters : s.clearSlot.resp.counters = s.resp.counters := rfl
@[simp] theorem State.modChan_bidNumber (p : Pump) (f : Channel → Channel) :
    (s.modChan p f).pumps.bidNumber = s.pumps.bidNumber := rfl
@[simp] theorem State.setRequest_credits (p : Pump) (r : Option Request) :
    (s.setRequest p r).sched.credits = s.sched.credits := rfl
@[simp] theorem State.setRequest_evalDue (p : Pump) (r : Option Request) :
    (s.setRequest p r).sched.evalDue = s.sched.evalDue := rfl
@[simp] theorem State.setRequest_pickDue (p : Pump) (r : Option Request) :
    (s.setRequest p r).sched.pickDue = s.sched.pickDue := rfl
@[simp] theorem State.noteEval_evalDue : s.noteEval.sched.evalDue = true := rfl
@[simp] theorem State.noteEval_pickDue : s.noteEval.sched.pickDue = s.sched.pickDue := rfl
@[simp] theorem State.noteEval_request : s.noteEval.sched.request = s.sched.request := rfl
@[simp] theorem State.notePick_evalDue : s.notePick.sched.evalDue = s.sched.evalDue := rfl
@[simp] theorem State.notePick_pickDue : s.notePick.sched.pickDue = true := rfl
@[simp] theorem State.notePick_request : s.notePick.sched.request = s.sched.request := rfl
/-- Several evaluation events are one (log 31). -/
@[simp] theorem State.noteEval_noteEval : s.noteEval.noteEval = s.noteEval := rfl
/-- Several pick events are one (log 31). -/
@[simp] theorem State.notePick_notePick : s.notePick.notePick = s.notePick := rfl
@[simp] theorem State.noteMove_request (old new : ChanState) :
    (s.noteMove old new).sched.request = s.sched.request := rfl
@[simp] theorem State.setMode_mode (m : StationMode) : (s.setMode m).ctl.mode = m := rfl
@[simp] theorem State.setMismatch_mode (a : Option Station) : (s.setMismatch a).ctl.mode = s.ctl.mode := rfl
@[simp] theorem State.setMismatch_hold (a : Option Station) : (s.setMismatch a).ctl.hold = s.ctl.hold := rfl
@[simp] theorem State.setMismatch_mismatch (a : Option Station) : (s.setMismatch a).ctl.mismatch = a := rfl
@[simp] theorem State.withPending_pending (q : List Instr) : (s.withPending q).pending = q := rfl
@[simp] theorem State.advance_bidNumber (d : Nat) : (s.advance d).pumps.bidNumber = s.pumps.bidNumber := rfl

/-! ## Reading a vector after a write -/

theorem State.modChan_chan_self (p : Pump) (f : Channel → Channel) : (s.modChan p f).chan p = f (s.chan p) := by
  simp [State.modChan, State.chan]

theorem State.modChan_chan_ne {p q : Pump} (h : q ≠ p) (f : Channel → Channel) :
    (s.modChan p f).chan q = s.chan q := by
  have h' : p.val ≠ q.val := fun e => h (Fin.ext e.symm)
  simp [State.modChan, State.chan, h']

theorem State.setRequest_request_self (p : Pump) (r : Option Request) : (s.setRequest p r).request p = r := by
  simp [State.setRequest, State.request]

theorem State.setRequest_request_ne {p q : Pump} (h : q ≠ p) (r : Option Request) :
    (s.setRequest p r).request q = s.request q := by
  have h' : p.val ≠ q.val := fun e => h (Fin.ext e.symm)
  simp [State.setRequest, State.request, h']

theorem State.setRoster_rosterOf_self (a : Station) (r : RosterRecord) : (s.setRoster a r).rosterOf a = r := by
  simp [State.setRoster, State.rosterOf]

theorem State.setRoster_rosterOf_ne {a b : Station} (h : b ≠ a) (r : RosterRecord) :
    (s.setRoster a r).rosterOf b = s.rosterOf b := by
  have h' : a.val ≠ b.val := fun e => h (Fin.ext e.symm)
  simp [State.setRoster, State.rosterOf, h']

theorem State.setLines_pump_self (p : Pump) (l : PumpLines) : (s.setLines p l).field.pump[p] = l := by
  simp [State.setLines]

theorem State.setLines_pump_ne {p q : Pump} (h : q ≠ p) (l : PumpLines) :
    (s.setLines p l).field.pump[q] = s.field.pump[q] := by
  have h' : p.val ≠ q.val := fun e => h (Fin.ext e.symm)
  simp [State.setLines, h']

theorem mapSix_get {α : Type} (f : α → α) (v : Vector α 6) (p : Pump) : (mapSix f v)[p] = f v[p] := by
  match p with
  | ⟨0, _⟩ => rfl
  | ⟨1, _⟩ => rfl
  | ⟨2, _⟩ => rfl
  | ⟨3, _⟩ => rfl
  | ⟨4, _⟩ => rfl
  | ⟨5, _⟩ => rfl

end Sys2Proof.Machine
end

