-- ==== Sys2Proof/Laws/Channels.lean ====
section
/-! SUPPORT. What the operations of the pump channels can do (chapter 3): each changes channels, requests, the marks
of the step, the freeze, the waiting and held telegrams, the pending-ask slot and the displaced count, and nothing
else. -/

namespace Sys2Proof.Machine

/-- What an operation of a channel leaves alone. -/
structure ChanFrame (s t : State) : Prop where
  now : t.now = s.now
  field : t.field = s.field
  loader : t.loader = s.loader
  ctl : t.ctl = s.ctl
  claims : t.claims = s.claims
  faults : t.faults = s.faults
  alarm : t.alarm = s.alarm
  pending : t.pending = s.pending
  bidNumber : t.pumps.bidNumber = s.pumps.bidNumber
  credits : t.sched.credits = s.sched.credits
  levels : t.levels = { s.levels with freeze := t.levels.freeze, holdOver := t.levels.holdOver }
  bus : t.bus = { s.bus with queue := t.bus.queue, held := t.bus.held }
  counters : t.resp.counters = { s.resp.counters with displaced := t.resp.counters.displaced }
  block : ∀ p, (t.chan p).serviceBlock = (s.chan p).serviceBlock
  total : ∀ p, (t.chan p).totalRun = (s.chan p).totalRun

namespace ChanFrame

theorem refl (s : State) : ChanFrame s s :=
  ⟨rfl, rfl, rfl, rfl, rfl, rfl, rfl, rfl, rfl, rfl, rfl, rfl, rfl, fun _ => rfl, fun _ => rfl⟩

theorem trans {s t u : State} (h : ChanFrame s t) (k : ChanFrame t u) : ChanFrame s u where
  now := k.now.trans h.now
  field := k.field.trans h.field
  loader := k.loader.trans h.loader
  ctl := k.ctl.trans h.ctl
  claims := k.claims.trans h.claims
  faults := k.faults.trans h.faults
  alarm := k.alarm.trans h.alarm
  pending := k.pending.trans h.pending
  bidNumber := k.bidNumber.trans h.bidNumber
  credits := k.credits.trans h.credits
  levels := by rw [k.levels, h.levels]
  bus := by rw [k.bus, h.bus]
  counters := by rw [k.counters, h.counters]
  block := fun p => (k.block p).trans (h.block p)
  total := fun p => (k.total p).trans (h.total p)

/-! ## The writes -/

theorem modChan (p : Pump) (f : Channel → Channel) (s : State)
    (hb : (f (s.chan p)).serviceBlock = (s.chan p).serviceBlock)
    (ht : (f (s.chan p)).totalRun = (s.chan p).totalRun) : ChanFrame s (s.modChan p f) := by
  refine ⟨rfl, rfl, rfl, rfl, rfl, rfl, rfl, rfl, rfl, rfl, rfl, rfl, rfl, fun q => ?_, fun q => ?_⟩ <;>
  · by_cases h : q = p
    · subst h; rw [State.modChan_chan_self]; assumption
    · rw [State.modChan_chan_ne s h]

theorem setRequest (p : Pump) (r : Option Request) (s : State) : ChanFrame s (s.setRequest p r) :=
  ⟨rfl, rfl, rfl, rfl, rfl, rfl, rfl, rfl, rfl, rfl, rfl, rfl, rfl, fun _ => rfl, fun _ => rfl⟩

theorem setHold (p : Pump) (s : State) : ChanFrame s (s.setHold p) := setRequest p _ s

theorem noteEval (s : State) : ChanFrame s s.noteEval :=
  ⟨rfl, rfl, rfl, rfl, rfl, rfl, rfl, rfl, rfl, rfl, rfl, rfl, rfl, fun _ => rfl, fun _ => rfl⟩

theorem notePick (s : State) : ChanFrame s s.notePick :=
  ⟨rfl, rfl, rfl, rfl, rfl, rfl, rfl, rfl, rfl, rfl, rfl, rfl, rfl, fun _ => rfl, fun _ => rfl⟩

theorem noteMove (old new : ChanState) (s : State) : ChanFrame s (s.noteMove old new) :=
  ⟨rfl, rfl, rfl, rfl, rfl, rfl, rfl, rfl, rfl, rfl, rfl, rfl, rfl, fun _ => rfl, fun _ => rfl⟩

theorem setQueue (q : List Telegram) (s : State) : ChanFrame s (s.setQueue q) :=
  ⟨rfl, rfl, rfl, rfl, rfl, rfl, rfl, rfl, rfl, rfl, rfl, rfl, rfl, fun _ => rfl, fun _ => rfl⟩

theorem cancel (q : Telegram → Bool) (s : State) : ChanFrame s (s.cancel q) :=
  ⟨rfl, rfl, rfl, rfl, rfl, rfl, rfl, rfl, rfl, rfl, rfl, rfl, rfl, fun _ => rfl, fun _ => rfl⟩

theorem hold (t : Telegram) (s : State) : ChanFrame s (s.hold t) :=
  ⟨rfl, rfl, rfl, rfl, rfl, rfl, rfl, rfl, rfl, rfl, rfl, rfl, rfl, fun _ => rfl, fun _ => rfl⟩

theorem countLost (s : State) : ChanFrame s s.countLost :=
  ⟨rfl, rfl, rfl, rfl, rfl, rfl, rfl, rfl, rfl, rfl, rfl, rfl, rfl, fun _ => rfl, fun _ => rfl⟩

theorem clearSlot (s : State) : ChanFrame s s.clearSlot :=
  ⟨rfl, rfl, rfl, rfl, rfl, rfl, rfl, rfl, rfl, rfl, rfl, rfl, rfl, fun _ => rfl, fun _ => rfl⟩

theorem followFreeze (old new : ChanState) (s : State) : ChanFrame s (s.followFreeze old new) := by
  unfold State.followFreeze
  split
  · exact ⟨rfl, rfl, rfl, rfl, rfl, rfl, rfl, rfl, rfl, rfl, rfl, rfl, rfl, fun _ => rfl, fun _ => rfl⟩
  · split
    · exact ⟨rfl, rfl, rfl, rfl, rfl, rfl, rfl, rfl, rfl, rfl, rfl, rfl, rfl, fun _ => rfl, fun _ => rfl⟩
    · exact refl s

/-- A choice between two operations keeps what both keep. -/
theorem ite {s a b : State} {c : Prop} [Decidable c] (ha : ChanFrame s a) (hb : ChanFrame s b) :
    ChanFrame s (if c then a else b) := by
  split
  · exact ha
  · exact hb

/-- A walk over pumps keeps what each of its steps keeps. -/
theorem foldl {f : State → Pump → State} (h : ∀ s p, ChanFrame s (f s p)) (ps : List Pump) (s : State) :
    ChanFrame s (ps.foldl f s) := by
  induction ps generalizing s with
  | nil => exact refl s
  | cons p ps ih => exact (h s p).trans (ih _)

/-! ## Entering states -/

theorem enter (p : Pump) (new : ChanState) (s : State) : ChanFrame s (s.enter p new) :=
  ((modChan p _ s rfl rfl).trans (followFreeze _ _ _)).trans (noteMove _ _ _)

theorem toQueued (p : Pump) (s : State) : ChanFrame s (s.toQueued p) :=
  (modChan p _ s rfl rfl).trans (enter p _ _)

theorem toQueuedHeld (p : Pump) (s : State) : ChanFrame s (s.toQueuedHeld p) := (toQueued p s).trans (setHold p _)

theorem available (p : Pump) (s : State) : ChanFrame s (s.available p) :=
  ite (enter p _ s) (ite (enter p _ s) (enter p _ s))

/-! ## The channels' telegrams -/

theorem loseDisplaced (t : Telegram) (s : State) : ChanFrame s (s.loseDisplaced t) := by
  cases t with
  | bid c => exact ite ((countLost s).trans (toQueued _ _)) (countLost s)
  | answer => exact (countLost s).trans (clearSlot _)
  | veto _ => exact countLost s
  | roll => exact countLost s
  | drop _ => exact countLost s
  | run _ => exact countLost s
  | commit _ => exact countLost s

theorem handForced (t : Telegram) (s : State) : ChanFrame s (s.handForced t) := by
  unfold State.handForced
  split
  · exact setQueue _ s
  · exact (setQueue _ s).trans (loseDisplaced _ _)
  · exact countLost s

theorem queueDrop (p : Pump) (r : DropReason) (s : State) : ChanFrame s (s.queueDrop p r) :=
  (cancel _ s).trans (ite (refl _) (handForced _ _))

theorem queueRun (p : Pump) (s : State) : ChanFrame s (s.queueRun p) := by
  unfold State.queueRun
  split
  · exact refl s
  · exact (cancel _ s).trans (ite (hold _ _) (handForced _ _))

theorem loseUntaken (t : Telegram) (s : State) : ChanFrame s (s.loseUntaken t) := by
  cases t with
  | bid c => exact ite ((countLost s).trans (toQueuedHeld _ _)) (countLost s)
  | commit c => exact ite (((countLost s).trans (toQueuedHeld _ _)).trans (queueDrop _ _ _)) (countLost s)
  | answer => exact (countLost s).trans (clearSlot _)
  | veto _ => exact countLost s
  | roll => exact countLost s
  | drop _ => exact countLost s
  | run _ => exact countLost s

theorem handIn (t : Telegram) (s : State) : ChanFrame s (s.handIn t) := by
  unfold State.handIn
  split
  · exact setQueue _ s
  · exact (setQueue _ s).trans (loseDisplaced _ _)
  · exact loseUntaken t s

theorem handInRoll (s : State) : ChanFrame s s.handInRoll := ite (refl s) (ite (hold _ s) (handIn _ s))

theorem handInBid (c : ClaimFields) (s : State) : ChanFrame s (s.handInBid c) := ite (hold _ s) (handIn _ s)

/-! ## Stops and starts -/

theorem dropClaim (p : Pump) (r : DropReason) (s : State) : ChanFrame s (s.dropClaim p r) :=
  (queueDrop p r s).trans (modChan p _ _ rfl rfl)

theorem enterResting (p : Pump) (s : State) : ChanFrame s (s.enterResting p) :=
  (enter p _ s).trans (ite (available p _) (modChan p _ _ rfl rfl))

theorem confirmStop (p : Pump) (s : State) : ChanFrame s (s.confirmStop p) :=
  ((dropClaim p _ s).trans (modChan p _ _ rfl rfl)).trans (enterResting p _)

theorem stop (p : Pump) (r : StopReason) (s : State) : ChanFrame s (s.stop p r) :=
  ((modChan p _ s rfl rfl).trans (enter p _ _)).trans (ite (refl _) (confirmStop p _))

theorem trip (p : Pump) (s : State) : ChanFrame s (s.trip p) :=
  ((modChan p _ s rfl rfl).trans (enter p _ _)).trans (ite (refl _) (dropClaim p _ _))

theorem testStop (p : Pump) (s : State) : ChanFrame s (s.testStop p) := ite (stop p _ s) (refl s)

theorem testStops (s : State) : ChanFrame s s.testStops := foldl (fun s p => testStop p s) allPumps s

theorem beginRunning (p : Pump) (s : State) : ChanFrame s (s.beginRunning p) :=
  (((modChan p _ s rfl rfl).trans (enter p _ _)).trans (queueRun p _)).trans (testStop p _)

theorem confirmStart (p : Pump) (s : State) : ChanFrame s (s.confirmStart p) :=
  (modChan p _ s rfl rfl).trans (beginRunning p _)

theorem enterStarting (p : Pump) (s : State) : ChanFrame s (s.enterStarting p) :=
  (((setRequest p _ s).trans (modChan p _ _ rfl rfl)).trans (enter p _ _)).trans (ite (confirmStart p _) (refl _))

/-! ## Hand control and withdrawal -/

theorem enterLocalRun (p : Pump) (s : State) : ChanFrame s (s.enterLocalRun p) :=
  (((setRequest p _ s).trans (modChan p _ _ rfl rfl)).trans (enter p _ _)).trans (queueRun p _)

theorem handOver (p : Pump) (s : State) : ChanFrame s (s.handOver p) :=
  ((modChan p _ s rfl rfl).trans (enter p _ _)).trans (queueRun p _)

theorem handReturn (p : Pump) (s : State) : ChanFrame s (s.handReturn p) :=
  ite ((modChan p _ s rfl rfl).trans (beginRunning p _)) (refl s)

theorem withdraw (p : Pump) (s : State) : ChanFrame s (s.withdraw p) := by
  unfold State.withdraw
  split
  · exact ((cancel _ s).trans (ite (queueDrop p _ _) (refl _))).trans (modChan p _ _ rfl rfl)
  · exact ((cancel _ s).trans (queueDrop p _ _)).trans (modChan p _ _ rfl rfl)
  · exact refl s

theorem loseRequest (p : Pump) (s : State) : ChanFrame s (s.loseRequest p) :=
  (withdraw p s).trans (setRequest p _ _)

theorem withdrawToQueued (p : Pump) (s : State) : ChanFrame s (s.withdrawToQueued p) :=
  ite ((withdraw p s).trans (toQueued p _)) (refl s)

theorem withdrawAll (s : State) : ChanFrame s s.withdrawAll := foldl (fun s p => withdrawToQueued p s) allPumps s

theorem heedLines (p : Pump) (s : State) : ChanFrame s (s.heedLines p) :=
  ((ite (enterResting p s) (refl s)).trans (ite (trip p _) (refl _))).trans (ite (enterLocalRun p _) (refl _))

theorem heedAllLines (s : State) : ChanFrame s s.heedAllLines := foldl (fun s p => heedLines p s) allPumps s

theorem clearHolds (s : State) : ChanFrame s s.clearHolds :=
  ⟨rfl, rfl, rfl, rfl, rfl, rfl, rfl, rfl, rfl, rfl, rfl, rfl, rfl, fun _ => rfl, fun _ => rfl⟩

/-! ## Consequences -/

theorem img {s t : State} (h : ChanFrame s t) : t.img = s.img := by simp only [State.img, h.loader]
theorem own {s t : State} (h : ChanFrame s t) : t.own = s.own := by simp only [State.own, h.loader]
theorem receiverOn {s t : State} (h : ChanFrame s t) : t.receiverOn = s.receiverOn := by
  simp only [State.receiverOn, h.ctl]
theorem judging {s t : State} (h : ChanFrame s t) : t.judging = s.judging := by simp only [State.judging, h.ctl]
theorem feedback {s t : State} (h : ChanFrame s t) (p : Pump) : t.feedback p = s.feedback p := by
  simp only [State.feedback, h.field]
theorem overload {s t : State} (h : ChanFrame s t) (p : Pump) : t.overload p = s.overload p := by
  simp only [State.overload, h.field]
theorem auto {s t : State} (h : ChanFrame s t) (p : Pump) : t.auto p = s.auto p := by
  simp only [State.auto, h.field]
theorem gangStopped {s t : State} (h : ChanFrame s t) (p : Pump) : t.gangStopped p = s.gangStopped p := by
  simp only [State.gangStopped, h.field, h.img]
theorem onBus {s t : State} (h : ChanFrame s t) : t.bus.onBus = s.bus.onBus := by rw [h.bus]
theorem lockout {s t : State} (h : ChanFrame s t) : t.levels.lockout = s.levels.lockout := by rw [h.levels]
theorem delivery {s t : State} (h : ChanFrame s t) : t.delivery = s.delivery := by
  simp only [State.delivery, h.img]; rw [h.levels]

end ChanFrame

end Sys2Proof.Machine
end

