-- ==== Sys2Proof/Laws/Faults.lean ====
section
/-! SUPPORT. What a report and an acknowledgement can do (chapter 8): the fault file and the alarm line, and nothing
else; and that the file keeps its form (R164). -/

namespace Sys2Proof.Machine

/-- What a change of the fault file leaves alone. -/
structure FileFrame (s t : State) : Prop where
  now : t.now = s.now
  field : t.field = s.field
  loader : t.loader = s.loader
  ctl : t.ctl = s.ctl
  claims : t.claims = s.claims
  pumps : t.pumps = s.pumps
  sched : t.sched = s.sched
  levels : t.levels = s.levels
  bus : t.bus = s.bus
  resp : t.resp = s.resp
  pending : t.pending = s.pending
  alarmMode : t.alarm.mode = s.alarm.mode

namespace FileFrame

theorem refl (s : State) : FileFrame s s := ⟨rfl, rfl, rfl, rfl, rfl, rfl, rfl, rfl, rfl, rfl, rfl, rfl⟩

theorem trans {s t u : State} (h : FileFrame s t) (k : FileFrame t u) : FileFrame s u :=
  ⟨k.now.trans h.now, k.field.trans h.field, k.loader.trans h.loader, k.ctl.trans h.ctl, k.claims.trans h.claims,
    k.pumps.trans h.pumps, k.sched.trans h.sched, k.levels.trans h.levels, k.bus.trans h.bus, k.resp.trans h.resp,
    k.pending.trans h.pending, k.alarmMode.trans h.alarmMode⟩

theorem alarmFollow (was : Bool) (s : State) : FileFrame s (s.alarmFollow was) := by
  unfold State.alarmFollow
  split
  · exact ⟨rfl, rfl, rfl, rfl, rfl, rfl, rfl, rfl, rfl, rfl, rfl, rfl⟩
  · split
    · split <;> exact ⟨rfl, rfl, rfl, rfl, rfl, rfl, rfl, rfl, rfl, rfl, rfl, rfl⟩
    · exact refl s

theorem changeFile (f : FaultFile → FaultFile) (s : State) : FileFrame s (s.changeFile f) :=
  trans (t := { s with faults := f s.faults }) ⟨rfl, rfl, rfl, rfl, rfl, rfl, rfl, rfl, rfl, rfl, rfl, rfl⟩
    (alarmFollow _ _)

theorem reportCondition (k : FaultKey) (s : State) : FileFrame s (s.reportCondition k) := changeFile _ s
theorem reportEvent (k : FaultKey) (s : State) : FileFrame s (s.reportEvent k) := changeFile _ s
theorem reportEnd (k : FaultKey) (s : State) : FileFrame s (s.reportEnd k) := changeFile _ s

end FileFrame

/-! ## The file after a change -/

theorem State.alarmFollow_faults (was : Bool) (s : State) : (s.alarmFollow was).faults = s.faults := by
  unfold State.alarmFollow
  split
  · rfl
  · split
    · split <;> rfl
    · rfl

@[simp] theorem State.changeFile_faults (f : FaultFile → FaultFile) (s : State) :
    (s.changeFile f).faults = f s.faults := State.alarmFollow_faults _ _

@[simp] theorem State.reportCondition_faults (k : FaultKey) (s : State) :
    (s.reportCondition k).faults = s.faults.take true k s.uptime := State.changeFile_faults _ _

@[simp] theorem State.reportEvent_faults (k : FaultKey) (s : State) :
    (s.reportEvent k).faults = s.faults.take false k s.uptime := State.changeFile_faults _ _

@[simp] theorem State.reportEnd_faults (k : FaultKey) (s : State) :
    (s.reportEnd k).faults = s.faults.finish k := State.changeFile_faults _ _

/-! ## The form of the file (R164) -/

theorem FaultRecord.again_key (b : Bool) (r : FaultRecord) : (r.again b).key = r.key := rfl

theorem FaultFile.Wf.take {f : FaultFile} (h : f.Wf) (b : Bool) (k : FaultKey) (n : Nat) : (f.take b k n).Wf := by
  obtain ⟨hl, hn, hr⟩ := h
  unfold FaultFile.take
  split
  · refine ⟨by simpa using hl, ?_, ?_⟩
    · have : (List.map (fun r => if r.key = k then r.again b else r) f.records).map FaultRecord.key
          = f.records.map FaultRecord.key := by
        rw [List.map_map]
        apply List.map_congr_left
        intro r _
        show (if r.key = k then r.again b else r).key = r.key
        split <;> rfl
      rw [this]
      exact hn
    · intro r hm
      obtain ⟨q, hq, rfl⟩ := List.mem_map.1 hm
      obtain ⟨h1, h2, h3⟩ := hr q hq
      split
      · refine ⟨?_, Nat.min_le_right _ _, h3⟩
        show 1 ≤ min (q.repeatCount + 1) Config.repeatMax
        exact Nat.le_min.2 ⟨Nat.le_add_left _ _, by decide⟩
      · exact ⟨h1, h2, h3⟩
  · next hnew =>
    split
    · next hroom =>
      refine ⟨by simp only [List.length_append, List.length_singleton]; omega, ?_, ?_⟩
      · rw [List.map_append, List.nodup_append]
        refine ⟨hn, by simp, ?_⟩
        intro a ha c hc
        simp only [List.map_cons, List.map_nil, List.mem_singleton] at hc
        subst hc
        obtain ⟨q, hq, rfl⟩ := List.mem_map.1 ha
        intro e
        exact hnew (List.any_eq_true.2 ⟨q, hq, by simpa using e⟩)
      · intro r hm
        rcases List.mem_append.1 hm with hm | hm
        · exact hr r hm
        · rw [List.mem_singleton.1 hm]
          exact ⟨Nat.le_refl _, (by decide : 1 ≤ Config.repeatMax), Nat.min_le_right _ _⟩
    · exact ⟨hl, hn, hr⟩

theorem FaultFile.Wf.finish {f : FaultFile} (h : f.Wf) (k : FaultKey) : (f.finish k).Wf := by
  obtain ⟨hl, hn, hr⟩ := h
  have hkey : ∀ r : FaultRecord, (if r.stands k then { r with standing := false } else r).key = r.key := by
    intro r; split <;> rfl
  unfold FaultFile.finish
  refine ⟨?_, ?_, ?_⟩
  · simp only [List.length_map]
    exact Nat.le_trans (List.length_filter_le _ _) hl
  · simp only [List.map_map]
    have : (FaultRecord.key ∘ fun r : FaultRecord => if r.stands k then { r with standing := false } else r)
        = FaultRecord.key := funext hkey
    rw [this]
    exact (List.filter_sublist.map _).nodup hn
  · intro r hm
    obtain ⟨q, hq, rfl⟩ := List.mem_map.1 hm
    have hq' := hr q ((List.mem_filter.1 hq).1)
    split <;> exact hq'

theorem FaultFile.Wf.acknowledge {f : FaultFile} (h : f.Wf) : f.acknowledge.Wf := by
  obtain ⟨hl, hn, hr⟩ := h
  refine ⟨?_, ?_, ?_⟩
  · simp only [FaultFile.acknowledge, List.length_map]
    exact Nat.le_trans (List.length_filter_le _ _) hl
  · simp only [FaultFile.acknowledge, List.map_map]
    exact (List.filter_sublist.map _).nodup hn
  · intro r hm
    obtain ⟨q, hq, rfl⟩ := List.mem_map.1 hm
    exact hr q ((List.mem_filter.1 hq).1)

end Sys2Proof.Machine
end

