-- ==== Sys2Proof/Laws/Claims.lean ====
section
/-! SUPPORT. What the operations on the claim table can do (chapters 1 and 2): insertion, overwriting and removal as
list operations that keep the table order (R2) and act on one claim alone; the actions of the claim telegrams on the
table; and the hand-offs of a change. -/

namespace Sys2Proof.Machine

/-! ## The list operations -/

/-- Entries in table order, no two of one claim (R2). -/
def InOrder (es : List Entry) : Prop := (es.map Entry.key).Pairwise (· < ·)

theorem Entry.key_eq_iff {e f : Entry} : e.key = f.key ↔ e.owner = f.owner ∧ e.pump = f.pump := by
  constructor
  · intro h
    have h' : 6 * e.owner.val + e.pump.val = 6 * f.owner.val + f.pump.val := h
    have h1 := e.pump.isLt
    have h2 := f.pump.isLt
    constructor <;> apply Fin.ext <;> omega
  · rintro ⟨h1, h2⟩
    simp [Entry.key, h1, h2]

theorem insertEntry_keys (e : Entry) (es : List Entry) :
    ∀ k ∈ (insertEntry e es).map Entry.key, k = e.key ∨ k ∈ es.map Entry.key := by
  induction es with
  | nil => simp [insertEntry]
  | cons x xs ih =>
    intro k hk
    unfold insertEntry at hk
    split at hk
    · simpa using hk
    · split at hk
      · simp only [List.map_cons, List.mem_cons] at hk ⊢
        rcases hk with h | h
        · exact .inl h
        · exact .inr (.inr h)
      · simp only [List.map_cons, List.mem_cons] at hk ⊢
        rcases hk with h | h
        · exact .inr (.inl h)
        · rcases ih k h with h | h
          · exact .inl h
          · exact .inr (.inr h)

theorem InOrder.insertEntry {es : List Entry} (h : InOrder es) (e : Entry) : InOrder (insertEntry e es) := by
  induction es with
  | nil => simp [InOrder, Machine.insertEntry]
  | cons x xs ih =>
    have hx : (∀ k ∈ xs.map Entry.key, x.key < k) ∧ InOrder xs := by
      simpa [InOrder, List.pairwise_cons] using h
    unfold Machine.insertEntry
    split
    · next hlt =>
      simp only [InOrder, List.map_cons, List.pairwise_cons, List.mem_cons]
      refine ⟨?_, hx.1, hx.2⟩
      rintro k (rfl | hk)
      · exact hlt
      · exact Nat.lt_trans hlt (hx.1 k hk)
    · split
      · next heq =>
        simp only [InOrder, List.map_cons, List.pairwise_cons]
        exact ⟨fun k hk => heq ▸ hx.1 k hk, hx.2⟩
      · next hnlt hne =>
        simp only [InOrder, List.map_cons, List.pairwise_cons]
        refine ⟨fun k hk => ?_, ih hx.2⟩
        rcases insertEntry_keys e xs k hk with rfl | hk
        · omega
        · exact hx.1 k hk

theorem insertEntry_length_le (e : Entry) (es : List Entry) : (insertEntry e es).length ≤ es.length + 1 := by
  induction es with
  | nil => simp [insertEntry]
  | cons x xs ih =>
    unfold insertEntry
    split
    · simp
    · split
      · simp
      · simpa using ih

theorem InOrder.filter {es : List Entry} (h : InOrder es) (q : Entry → Bool) : InOrder (es.filter q) :=
  h.sublist (List.filter_sublist.map _)

theorem InOrder.mapSameKey {es : List Entry} (h : InOrder es) {f : Entry → Entry} (hf : ∀ e, (f e).key = e.key) :
    InOrder (es.map f) := by
  have : (es.map f).map Entry.key = es.map Entry.key := by
    rw [List.map_map]
    exact List.map_congr_left fun e _ => hf e
  simpa [InOrder, this] using h

theorem overwriteEntry_same_key (o : Station) (p : Pump) (f : EntryFields) (e : Entry) :
    (if e.isFor o p then e.write f else e).key = e.key := by
  split <;> rfl

theorem InOrder.overwriteEntry {es : List Entry} (h : InOrder es) (o : Station) (p : Pump) (f : EntryFields) :
    InOrder (overwriteEntry o p f es) := h.mapSameKey (overwriteEntry_same_key o p f)

/-! ## Looking up a claim after a change -/

theorem Entry.isFor_iff {e : Entry} {o : Station} {p : Pump} : e.isFor o p = true ↔ e.owner = o ∧ e.pump = p := by
  simp [Entry.isFor]

theorem findClaim_some {es : List Entry} {o : Station} {p : Pump} {e : Entry} (h : findClaim es o p = some e) :
    e ∈ es ∧ e.owner = o ∧ e.pump = p :=
  ⟨List.mem_of_find?_eq_some h, Entry.isFor_iff.1 (List.find?_some (p := fun e : Entry => e.isFor o p) h)⟩

theorem findClaim_none {es : List Entry} {o : Station} {p : Pump} (h : findClaim es o p = none) :
    ∀ e ∈ es, ¬ (e.owner = o ∧ e.pump = p) := fun e he k => by
  have := List.find?_eq_none.1 h e he
  exact this (Entry.isFor_iff.2 k)

theorem findClaim_insertEntry_self (e : Entry) (es : List Entry) (h : InOrder es) :
    findClaim (insertEntry e es) e.owner e.pump = some e := by
  have he : e.isFor e.owner e.pump = true := Entry.isFor_iff.2 ⟨rfl, rfl⟩
  induction es with
  | nil => simp [insertEntry, findClaim, he]
  | cons x xs ih =>
    have hx : InOrder xs := by
      have := h; simp only [InOrder, List.map_cons, List.pairwise_cons] at this; exact this.2
    unfold insertEntry
    split
    · simp [findClaim, he]
    · split
      · simp [findClaim, he]
      · next hne =>
        have : x.isFor e.owner e.pump = false := by
          rw [Bool.eq_false_iff]
          intro k
          exact hne (Entry.key_eq_iff.2 (by have := Entry.isFor_iff.1 k; exact ⟨this.1.symm, this.2.symm⟩))
        simpa [findClaim, this] using ih hx

theorem findClaim_insertEntry_ne (e : Entry) (es : List Entry) {o : Station} {p : Pump}
    (h : ¬ (e.owner = o ∧ e.pump = p)) : findClaim (insertEntry e es) o p = findClaim es o p := by
  have he : e.isFor o p = false := by
    rw [Bool.eq_false_iff]; exact fun k => h (Entry.isFor_iff.1 k)
  induction es with
  | nil => simp [insertEntry, findClaim, he]
  | cons x xs ih =>
    unfold insertEntry
    split
    · simp [findClaim, he]
    · split
      · next heq =>
        have hx : x.isFor o p = false := by
          have := Entry.key_eq_iff.1 heq
          rw [Bool.eq_false_iff]; intro k
          have k := Entry.isFor_iff.1 k
          exact h ⟨this.1.trans k.1, this.2.trans k.2⟩
        simp [findClaim, he, hx]
      · simp only [findClaim, List.find?_cons] at ih ⊢
        split
        · rfl
        · exact ih

theorem mem_insertEntry_ne {e x : Entry} {es : List Entry} (h : x.owner ≠ e.owner) :
    x ∈ insertEntry e es ↔ x ∈ es := by
  have hne : x ≠ e := fun k => h (k ▸ rfl)
  induction es with
  | nil => simp [insertEntry, hne]
  | cons y ys ih =>
    unfold insertEntry
    split
    · simp [hne]
    · split
      · next heq =>
        have : x ≠ y := fun k => h (k ▸ (Entry.key_eq_iff.1 heq).1.symm)
        simp [hne, this]
      · simp [ih]

theorem findClaim_removeEntry_self (es : List Entry) (o : Station) (p : Pump) :
    findClaim (removeEntry o p es) o p = none := by
  simp [findClaim, removeEntry, List.find?_eq_none]

theorem findClaim_removeEntry_ne (es : List Entry) {o o' : Station} {p p' : Pump} (h : ¬ (o' = o ∧ p' = p)) :
    findClaim (removeEntry o p es) o' p' = findClaim es o' p' := by
  induction es with
  | nil => rfl
  | cons x xs ih =>
    simp only [removeEntry, findClaim] at ih ⊢
    by_cases hx : x.isFor o p = true
    · have : x.isFor o' p' = false := by
        rw [Bool.eq_false_iff]; intro k
        have a := Entry.isFor_iff.1 hx
        have b := Entry.isFor_iff.1 k
        exact h ⟨b.1.symm.trans a.1, b.2.symm.trans a.2⟩
      simp [hx, this, ih]
    · simp only [hx, Bool.not_false, List.filter_cons_of_pos, List.find?_cons, ih]

theorem findClaim_map_sameKey {f : Entry → Entry} (hf : ∀ e, (f e).owner = e.owner ∧ (f e).pump = e.pump)
    (es : List Entry) (o : Station) (p : Pump) :
    findClaim (es.map f) o p = (findClaim es o p).map f := by
  induction es with
  | nil => rfl
  | cons x xs ih =>
    have : (f x).isFor o p = x.isFor o p := by simp [Entry.isFor, (hf x).1, (hf x).2]
    simp only [findClaim, List.map_cons, List.find?_cons, this] at ih ⊢
    split
    · rfl
    · exact ih

/-! ## Frame of an action on the table -/

/-- What an action on the table leaves alone, its hand-offs apart. -/
structure TableFrame (s t : State) : Prop where
  now : t.now = s.now
  field : t.field = s.field
  loader : t.loader = s.loader
  ctl : t.ctl = s.ctl
  roster : t.claims.roster = s.claims.roster
  settle : t.claims.settle = s.claims.settle
  pumps : t.pumps = s.pumps
  request : t.sched.request = s.sched.request
  credits : t.sched.credits = s.sched.credits
  evalDue : t.sched.evalDue = s.sched.evalDue
  levels : t.levels = s.levels
  bus : t.bus = s.bus
  resp : t.resp = s.resp
  pending : t.pending = s.pending
  alarmMode : t.alarm.mode = s.alarm.mode

namespace TableFrame

theorem refl (s : State) : TableFrame s s :=
  ⟨rfl, rfl, rfl, rfl, rfl, rfl, rfl, rfl, rfl, rfl, rfl, rfl, rfl, rfl, rfl⟩

theorem trans {s t u : State} (h : TableFrame s t) (k : TableFrame t u) : TableFrame s u :=
  ⟨k.now.trans h.now, k.field.trans h.field, k.loader.trans h.loader, k.ctl.trans h.ctl, k.roster.trans h.roster,
    k.settle.trans h.settle, k.pumps.trans h.pumps, k.request.trans h.request, k.credits.trans h.credits,
    k.evalDue.trans h.evalDue, k.levels.trans h.levels, k.bus.trans h.bus, k.resp.trans h.resp,
    k.pending.trans h.pending, k.alarmMode.trans h.alarmMode⟩

theorem ofFile {s t : State} (h : FileFrame s t) : TableFrame s t :=
  ⟨h.now, h.field, h.loader, h.ctl, congrArg _ h.claims, congrArg _ h.claims, h.pumps, congrArg _ h.sched,
    congrArg _ h.sched, congrArg _ h.sched, h.levels, h.bus, h.resp, h.pending, h.alarmMode⟩

theorem setEntries (es : List Entry) (s : State) : TableFrame s (s.setEntries es) :=
  ⟨rfl, rfl, rfl, rfl, rfl, rfl, rfl, rfl, rfl, rfl, rfl, rfl, rfl, rfl, rfl⟩

theorem notePick (s : State) : TableFrame s s.notePick :=
  ⟨rfl, rfl, rfl, rfl, rfl, rfl, rfl, rfl, rfl, rfl, rfl, rfl, rfl, rfl, rfl⟩

theorem ite {s a b : State} {c : Prop} [Decidable c] (ha : TableFrame s a) (hb : TableFrame s b) :
    TableFrame s (if c then a else b) := by
  split
  · exact ha
  · exact hb

theorem insertFails (s : State) : TableFrame s s.insertFails :=
  trans (t := { s with claims := { s.claims with full := true } })
    ⟨rfl, rfl, rfl, rfl, rfl, rfl, rfl, rfl, rfl, rfl, rfl, rfl, rfl, rfl, rfl⟩
    (ofFile (FileFrame.reportCondition _ _))

theorem insertClaim (o : Station) (p : Pump) (f : EntryFields) (s : State) : TableFrame s (s.insertClaim o p f) :=
  ite (setEntries _ s) (insertFails s)

theorem followBudget (was : Nat) (s : State) : TableFrame s (s.followBudget was) := by
  unfold State.followBudget
  split
  · exact ofFile (FileFrame.reportCondition _ _)
  · split
    · exact ofFile (FileFrame.reportEnd _ _)
    · exact refl s

theorem followRoom (s : State) : TableFrame s s.followRoom :=
  ite (trans (t := { s with claims := { s.claims with full := false } })
    ⟨rfl, rfl, rfl, rfl, rfl, rfl, rfl, rfl, rfl, rfl, rfl, rfl, rfl, rfl, rfl⟩ (ofFile (FileFrame.reportEnd _ _)))
    (refl s)

theorem diverges (o : Station) (s : State) : TableFrame s (s.diverges o) := ofFile (FileFrame.reportEvent _ s)

theorem refusalFault (o : Station) (c : ClaimFields) (r : RefusalReason) (s : State) :
    TableFrame s (s.refusalFault o c r) := by
  cases r with
  | membership => exact ofFile (FileFrame.reportEvent _ s)
  | tableFull => exact insertFails s
  | duplicate => exact refl s
  | mainBusy => exact refl s
  | budget => exact refl s
  | reserve => exact refl s

theorem commitEntry (o : Station) (c : ClaimFields) (s : State) : TableFrame s (s.commitEntry o c) := by
  unfold State.commitEntry
  split
  · exact ite (ite (setEntries _ s) (refl s)) ((setEntries _ s).trans (diverges _ _))
  · exact ite ((insertClaim _ _ _ s).trans (diverges _ _)) (insertFails s)

theorem runEntry (o : Station) (r : RunFields) (s : State) : TableFrame s (s.runEntry o r) := by
  unfold State.runEntry
  split
  · exact (setEntries _ s).trans (ite (diverges _ _) (refl _))
  · exact ite ((insertClaim _ _ _ s).trans (ite (refl _) (diverges _ _))) (insertFails s)

theorem reconcileCreate (o : Station) (d : Descriptor) (s : State) : TableFrame s (s.reconcileCreate o d) :=
  ite (refl s) (insertClaim _ _ _ s)

theorem foldl {α : Type} {f : State → α → State} (h : ∀ s p, TableFrame s (f s p)) (ps : List α) (s : State) :
    TableFrame s (ps.foldl f s) := by
  induction ps generalizing s with
  | nil => exact refl s
  | cons p ps ih => exact (h s p).trans (ih _)

theorem reconcilePasses (o : Station) (ds : List Descriptor) (s : State) : TableFrame s (s.reconcilePasses o ds) := by
  refine (setEntries _ s).trans (foldl (fun s p => ?_) _ _)
  split
  · exact reconcileCreate _ _ s
  · exact refl s

theorem reconcileEntries (o : Station) (ds : List Descriptor) (s : State) :
    TableFrame s (s.reconcileEntries o ds) :=
  (reconcilePasses o ds s).trans (ite (diverges _ _) (refl _))

theorem img {s t : State} (h : TableFrame s t) : t.img = s.img := by simp only [State.img, h.loader]
theorem own {s t : State} (h : TableFrame s t) : t.own = s.own := by simp only [State.own, h.loader]
theorem judging {s t : State} (h : TableFrame s t) : t.judging = s.judging := by simp only [State.judging, h.ctl]
theorem rosterOf {s t : State} (h : TableFrame s t) (a : Station) : t.rosterOf a = s.rosterOf a := by
  simp only [State.rosterOf, h.roster]
theorem chan {s t : State} (h : TableFrame s t) (p : Pump) : t.chan p = s.chan p := by
  simp only [State.chan, h.pumps]

/-- At a station that does not judge, the hand-offs stop no pump (R27, R49). -/
theorem handOn {s : State} (h : s.judging = false) (was : List Entry) : TableFrame s (s.handOn was) := by
  have hb := followBudget (loadOf was) s
  refine (hb.trans (ite ?_ (refl _))).trans ((ite (notePick _) (refl _)).trans (followRoom _))
  unfold State.shedIfOver
  rw [hb.judging, h]
  exact refl _

/-- At a station that does not judge, an action on the table keeps to the table. -/
theorem onTable {s : State} (h : s.judging = false) {act : State → State} (ha : TableFrame s (act s)) :
    TableFrame s (s.onTable act) := ha.trans (handOn (by rw [ha.judging, h]) _)

end TableFrame

/-! ## The entries after a hand-off -/

theorem State.followBudget_claims (was : Nat) (s : State) : (s.followBudget was).claims = s.claims := by
  unfold State.followBudget
  split
  · exact (FileFrame.reportCondition _ _).claims
  · split
    · exact (FileFrame.reportEnd _ _).claims
    · rfl

theorem State.followRoom_entries (s : State) : s.followRoom.claims.entries = s.claims.entries := by
  unfold State.followRoom
  split
  · rw [(FileFrame.reportEnd _ _).claims]
  · rfl

/-- A stop for shedding counts one shed and is otherwise a channel's stop (R51, R80). -/
theorem State.shedStop_frame (p : Pump) (s : State) :
    ChanFrame (s.count (fun c => { c with sheds := bump c.sheds })) (s.shedStop p) := ChanFrame.stop p _ _

/-- A shed evaluation leaves the claim table alone (R51, R52). -/
theorem State.shed_claims (s : State) : s.shed.claims = s.claims := by
  unfold State.shed
  split
  · rfl
  · split
    · exact (State.shedStop_frame _ s).claims
    · rfl

theorem State.shedIfOver_claims (s : State) : s.shedIfOver.claims = s.claims := by
  unfold State.shedIfOver
  split
  · exact s.shed_claims
  · rfl

/-- The hand-offs leave the entries alone (R22). -/
theorem State.handOn_entries (was : List Entry) (s : State) : (s.handOn was).claims.entries = s.claims.entries := by
  unfold State.handOn
  dsimp only
  rw [State.followRoom_entries]
  have h1 : ∀ u : State, (if loadOf was ≠ u.countedLoad then u.shedIfOver else u).claims = u.claims := by
    intro u; split
    · exact u.shedIfOver_claims
    · rfl
  have h2 : ∀ u : State, (if u.claims.entries ≠ was then u.notePick else u).claims = u.claims := by
    intro u; split <;> rfl
  rw [h2, h1, State.followBudget_claims]

@[simp] theorem State.onTable_entries (act : State → State) (s : State) :
    (s.onTable act).claims.entries = (act s).claims.entries := State.handOn_entries _ _

end Sys2Proof.Machine
end

