-- ==== Sys2Proof/Laws/Settle.lean ====
section
/-! SUPPORT. What the settling of a step can do (log 6): the lines heeded, the evaluation and the picks it makes. It
keeps everything but the channels, their requests and telegrams, and, in ISOLATED alone, what an island start writes;
it keeps a channel that neither waits nor bids; and on a station at rest it does nothing. -/

namespace Sys2Proof.Machine

/-! ## Reports that concern no trip -/

theorem FaultFile.namesTrip_take {f : FaultFile} {k : FaultKey} (hk : k.kind ≠ .overload ∧ k.kind ≠ .startFail)
    (b : Bool) (n : Nat) (p : Pump) : (f.take b k n).namesTrip p = f.namesTrip p := by
  unfold FaultFile.take FaultFile.namesTrip
  split
  · simp only [List.any_map]
    congr 1
    funext r
    simp only [Function.comp]
    split <;> rfl
  · split
    · simp [List.any_append, hk.1, hk.2]
    · rfl

theorem FaultFile.namesTrip_finish {f : FaultFile} {k : FaultKey} (hk : k.kind ≠ .overload ∧ k.kind ≠ .startFail)
    (p : Pump) : (f.finish k).namesTrip p = f.namesTrip p := by
  unfold FaultFile.finish FaultFile.namesTrip
  simp only [List.any_map, List.any_filter]
  congr 1
  funext r
  by_cases h : r.key = k
  · have h1 : (r.key.kind = .overload) = False := by simp [h, hk.1]
    have h2 : (r.key.kind = .startFail) = False := by simp [h, hk.2]
    simp only [Function.comp]
    split <;> simp [h1, h2]
  · simp [FaultRecord.stands, h]

/-! ## The frame -/

/-- What the settling leaves alone. -/
structure SettleFrame (s t : State) : Prop where
  now : t.now = s.now
  field : t.field = s.field
  loader : t.loader = s.loader
  ctl : t.ctl = s.ctl
  pending : t.pending = s.pending
  roster : t.claims.roster = s.claims.roster
  settle : t.claims.settle = s.claims.settle
  levels : t.levels = { s.levels with freeze := t.levels.freeze, holdOver := t.levels.holdOver }
  bus : t.bus = { s.bus with queue := t.bus.queue, held := t.bus.held }
  counters : t.resp.counters = { s.resp.counters with displaced := t.resp.counters.displaced }
  alarmMode : t.alarm.mode = s.alarm.mode
  block : ∀ p, (t.chan p).serviceBlock = (s.chan p).serviceBlock
  total : ∀ p, (t.chan p).totalRun = (s.chan p).totalRun
  trips : ∀ p, t.faults.namesTrip p = s.faults.namesTrip p
  others : ∀ o p, o ≠ s.own → t.entry o p = s.entry o p
  table : s.ctl.mode ≠ .isolated → t.claims = s.claims ∧ t.faults = s.faults ∧ t.alarm = s.alarm

namespace SettleFrame

theorem ofChan {s t : State} (h : ChanFrame s t) : SettleFrame s t where
  now := h.now
  field := h.field
  loader := h.loader
  ctl := h.ctl
  pending := h.pending
  roster := congrArg _ h.claims
  settle := congrArg _ h.claims
  levels := h.levels
  bus := h.bus
  counters := h.counters
  alarmMode := congrArg _ h.alarm
  block := h.block
  total := h.total
  trips := fun p => by rw [h.faults]
  others := fun o p _ => by simp only [State.entry, h.claims]
  table := fun _ => ⟨h.claims, h.faults, h.alarm⟩

theorem refl (s : State) : SettleFrame s s := ofChan (ChanFrame.refl s)

theorem own {s t : State} (h : SettleFrame s t) : t.own = s.own := by simp only [State.own, h.loader]

theorem trans {s t u : State} (h : SettleFrame s t) (k : SettleFrame t u) : SettleFrame s u where
  now := k.now.trans h.now
  field := k.field.trans h.field
  loader := k.loader.trans h.loader
  ctl := k.ctl.trans h.ctl
  pending := k.pending.trans h.pending
  roster := k.roster.trans h.roster
  settle := k.settle.trans h.settle
  levels := by rw [k.levels, h.levels]
  bus := by rw [k.bus, h.bus]
  counters := by rw [k.counters, h.counters]
  alarmMode := k.alarmMode.trans h.alarmMode
  block := fun p => (k.block p).trans (h.block p)
  total := fun p => (k.total p).trans (h.total p)
  trips := fun p => (k.trips p).trans (h.trips p)
  others := fun o p ho => (k.others o p (by rw [h.own]; exact ho)).trans (h.others o p ho)
  table := fun hm => by
    obtain ⟨a, b, c⟩ := h.table hm
    obtain ⟨a', b', c'⟩ := k.table (by rw [h.ctl]; exact hm)
    exact ⟨a'.trans a, b'.trans b, c'.trans c⟩

/-! ## Evaluation -/

theorem evaluateAt (p : Pump) (s : State) : ChanFrame s (s.evaluateAt p) := by
  have hr : ∀ c, ChanFrame s (s.reclass p c) := by
    intro c
    unfold State.reclass
    split
    · exact ChanFrame.ite (ChanFrame.refl s) ((ChanFrame.setRequest _ _ s).trans (ChanFrame.notePick _))
    · exact ChanFrame.refl s
  have hl : ChanFrame s ((s.loseRequest p).available p) := (ChanFrame.loseRequest p s).trans (ChanFrame.available p _)
  unfold State.evaluateAt
  split
  · split
    · exact ((ChanFrame.setRequest _ _ s).trans (ChanFrame.enter p _ _)).trans (ChanFrame.notePick _)
    · exact ChanFrame.refl s
  · split
    · exact hr _
    · exact hl
  · split
    · exact hr _
    · exact hl
  · split
    · exact hr _
    · exact hl
  · exact ChanFrame.refl s

theorem evaluate (s : State) : ChanFrame s s.evaluate :=
  ChanFrame.trans
    (t := { s with sched := { s.sched with evalDue := false } })
    ⟨rfl, rfl, rfl, rfl, rfl, rfl, rfl, rfl, rfl, rfl, rfl, rfl, rfl, fun _ => rfl, fun _ => rfl⟩
    (ChanFrame.foldl (fun s p => evaluateAt p s) allPumps _)

/-! ## Picks -/

theorem startBid (p : Pump) (c : Class) (s : State) : SettleFrame s (s.startBid p c) := by
  have h : SettleFrame s { s with pumps := { s.pumps with bidNumber := s.pumps.bidNumber + 1#8 } } :=
    ⟨rfl, rfl, rfl, rfl, rfl, rfl, rfl, rfl, rfl, rfl, rfl, fun _ => rfl, fun _ => rfl, fun _ => rfl,
      fun _ _ _ => rfl, fun _ => ⟨rfl, rfl, rfl⟩⟩
  refine h.trans (ofChan ?_)
  exact ((ChanFrame.modChan p _ _ rfl rfl).trans (ChanFrame.enter p _ _)).trans (ChanFrame.handInBid _ _)

/-- An insertion of an own entry, handed on at a station in ISOLATED. -/
theorem ownInsert {s : State} (hm : s.ctl.mode = .isolated) (p : Pump) (f : EntryFields) :
    SettleFrame s (s.onTable (State.insertClaim s.own p f)) := by
  have hj : s.judging = false := by simp [State.judging, hm]
  have h : TableFrame s (s.onTable (State.insertClaim s.own p f)) :=
    TableFrame.onTable hj (TableFrame.insertClaim _ _ _ s)
  have trips : ∀ p', (s.onTable (State.insertClaim s.own p f)).faults.namesTrip p' = s.faults.namesTrip p' := by
    intro p'
    have hi : ∀ u : State, (u.insertClaim u.own p f).faults.namesTrip p' = u.faults.namesTrip p' := by
      intro u
      unfold State.insertClaim
      split
      · rfl
      · simp only [State.insertFails, State.reportCondition_faults]
        exact FaultFile.namesTrip_take (by decide) _ _ _
    have hb : ∀ (n : Nat) (u : State), (u.followBudget n).faults.namesTrip p' = u.faults.namesTrip p' := by
      intro n u
      unfold State.followBudget
      split
      · rw [State.reportCondition_faults]; exact FaultFile.namesTrip_take (by decide) _ _ _
      · split
        · rw [State.reportEnd_faults]; exact FaultFile.namesTrip_finish (by decide) _
        · rfl
    have hr : ∀ u : State, u.followRoom.faults.namesTrip p' = u.faults.namesTrip p' := by
      intro u
      unfold State.followRoom
      split
      · rw [State.reportEnd_faults]; exact FaultFile.namesTrip_finish (by decide) _
      · rfl
    have hs : ∀ u : State, u.judging = false → u.shedIfOver = u := by
      intro u hu; simp [State.shedIfOver, hu]
    unfold State.onTable State.handOn
    dsimp only
    rw [hr]
    have h2 : ∀ (c : Prop) [Decidable c] (u : State), (if c then u.notePick else u).faults = u.faults := by
      intro c _ u; split <;> rfl
    rw [h2]
    have hj2 : ((s.insertClaim s.own p f).followBudget (loadOf s.claims.entries)).judging = false := by
      rw [(TableFrame.followBudget _ _).judging, (TableFrame.insertClaim _ _ _ s).judging, hj]
    rw [hs _ hj2, ite_self, hb, hi]
  refine ⟨h.now, h.field, h.loader, h.ctl, h.pending, h.roster, h.settle, by rw [h.levels], by rw [h.bus],
    by rw [h.resp], h.alarmMode, fun q => by rw [h.chan], fun q => by rw [h.chan], trips, ?_, fun k => absurd hm k⟩
  intro o q ho
  simp only [State.entry, State.onTable_entries]
  unfold State.insertClaim
  split
  · exact findClaim_insertEntry_ne _ _ (fun k => ho k.1.symm)
  · simp only [State.insertFails]
    rw [(FileFrame.reportCondition _ _).claims]

theorem islandStart {s : State} (hm : s.ctl.mode = .isolated) (p : Pump) (c : Class) :
    SettleFrame s (s.islandStart p c) := by
  unfold State.islandStart
  split
  · exact (ownInsert hm p _).trans
      (ofChan ((ChanFrame.modChan p _ _ rfl rfl).trans (ChanFrame.enterStarting p _)))
  · exact (ownInsert hm p _).trans (ofChan (ChanFrame.setHold p _))

theorem firstOf_mem {s : State} {ps : List Pump} {p : Pump} (h : s.firstOf ps = some p) : p ∈ ps := by
  induction ps generalizing p with
  | nil => simp [State.firstOf] at h
  | cons q qs ih =>
    unfold State.firstOf at h
    split at h
    · simp at h; simp [h]
    · next r hr =>
      split at h
      · simp at h; simp [h]
      · simp at h; subst h; exact List.mem_cons_of_mem _ (ih hr)

theorem eligible_mode {s : State} {p : Pump} (h : s.eligible p = true) :
    s.ctl.mode = .active ∨ s.ctl.mode = .isolated := by
  unfold State.eligible at h
  split at h
  · simp only [Bool.and_eq_true] at h
    have hm := h.1.1.1.2
    unfold State.modeAllows at hm
    split at hm <;> simp_all
  · simp at h

theorem eligible_queued {s : State} {p : Pump} (h : s.eligible p = true) : (s.chan p).state = .queued := by
  unfold State.eligible at h
  split at h
  · simp only [Bool.and_eq_true, decide_eq_true_eq] at h
    exact h.1.1.1.1.1.2
  · simp at h

theorem pick (s : State) : SettleFrame s s.pick := by
  have h0 : ∀ k : Credits, SettleFrame s
      { s with sched := { s.sched with pickDue := false, credits := k } } := fun _ =>
    ⟨rfl, rfl, rfl, rfl, rfl, rfl, rfl, rfl, rfl, rfl, rfl, fun _ => rfl, fun _ => rfl, fun _ => rfl,
      fun _ _ _ => rfl, fun _ => ⟨rfl, rfl, rfl⟩⟩
  unfold State.pick
  dsimp only
  split
  · exact h0 s.sched.credits
  · split
    · exact h0 s.sched.credits
    · next c k _ =>
      split
      · exact h0 s.sched.credits
      · next p hp =>
        have he := (List.mem_filter.1 (firstOf_mem hp)).2
        simp only [State.eligibleIn, Bool.and_eq_true] at he
        refine (h0 k).trans ?_
        unfold State.handPick
        split
        · exact startBid _ _ _
        · next hna =>
          rcases eligible_mode he.1 with hm | hm
          · exact absurd hm hna
          · exact @islandStart { s with sched := { s.sched with pickDue := false, credits := k } } hm p c

/-! ## The settling -/

theorem settleLoop (n : Nat) (s : State) : SettleFrame s (State.settleLoop n s) := by
  induction n generalizing s with
  | zero => exact refl s
  | succ n ih =>
    unfold State.settleLoop
    dsimp only
    have h := ofChan (ChanFrame.heedAllLines s)
    split
    · exact (h.trans (ofChan (evaluate _))).trans (ih _)
    · split
      · exact (h.trans (pick _)).trans (ih _)
      · exact h

/-- The marks of the step taken down. -/
theorem clearMarks (s : State) :
    ChanFrame s { s with sched := { s.sched with evalDue := false, pickDue := false } } :=
  ⟨rfl, rfl, rfl, rfl, rfl, rfl, rfl, rfl, rfl, rfl, rfl, rfl, rfl, fun _ => rfl, fun _ => rfl⟩

theorem settled (s : State) : SettleFrame s s.settle :=
  (settleLoop Config.settleRounds s).trans (ofChan (clearMarks (State.settleLoop Config.settleRounds s)))

end SettleFrame

/-! ## A station at rest -/

theorem State.heedLines_quiet {s : State} {p : Pump} (h : s.lineQuiet p) : s.heedLines p = s := by
  obtain ⟨h1, h2, h3⟩ := h
  simp [State.heedLines, h1, h2, h3]

theorem State.heedAllLines_quiet {s : State} (h : ∀ p, s.lineQuiet p) : s.heedAllLines = s := by
  simp [State.heedAllLines, allPumps, State.heedLines_quiet (h _)]

/-- On a station at rest the settling does nothing. -/
theorem State.settle_quiet {s : State} (h : s.Quiet) : s.settle = s := by
  obtain ⟨⟨he, hp⟩, hq⟩ := h
  have : State.settleLoop Config.settleRounds s = s := by
    unfold Config.settleRounds State.settleLoop
    simp [State.heedAllLines_quiet hq, he, hp]
  rw [State.settle, this]
  cases s with
  | mk _ _ _ _ _ _ sched _ _ _ _ _ _ =>
    cases sched
    simp_all

/-- The settling leaves no event over. -/
theorem State.settle_marks (s : State) : s.settle.MarksClear := ⟨rfl, rfl⟩

end Sys2Proof.Machine
end

