-- ==== Sys2Proof/Laws/Notions.lean ====
section
/-! SUPPORT. The notions of Safety.lean against the operations: counted load, the shed victim (R50), the mismatching
peer (R160 to R162) and the bytes of an ANSWER (11.3). -/

namespace Sys2Proof.Machine

/-! ## Counted load and room -/

theorem State.countedLoad_eq_loadSum (s : State) : s.countedLoad = s.loadSum := by
  simp only [State.countedLoad, State.loadSum, loadOf]
  induction s.claims.entries with
  | nil => rfl
  | cons e es ih => simp [ih]

theorem State.overBudget_iff (s : State) : s.overBudget = true ↔ s.img.cap < s.loadSum := by
  simp [State.overBudget, State.countedLoad_eq_loadSum]

theorem State.hasRoom_iff (s : State) : s.hasRoom = true ↔ s.claims.entries.length < 48 := by
  exact decide_eq_true_iff

/-! ## The victim of the table (R50) -/

theorem Entry.sheddable_iff (e : Entry) : e.sheddable = true ↔ e.mayBeShed := by
  simp [Entry.sheddable, Entry.mayBeShed, and_assoc]

/-- One of two entries ranks at least as high as the other by class, owner and pump. -/
def Entry.topped (x e : Entry) : Prop :=
  x.cls < e.cls ∨ (x.cls = e.cls ∧ (x.owner < e.owner ∨ (x.owner = e.owner ∧ x.pump ≤ e.pump)))

theorem Entry.topped_refl (e : Entry) : e.topped e := .inr ⟨rfl, .inr ⟨rfl, Nat.le_refl _⟩⟩

theorem Entry.topped_trans {x y z : Entry} (h : x.topped y) (k : y.topped z) : x.topped z := by
  simp only [Entry.topped, Fin.lt_def, Fin.le_def, Fin.ext_iff] at *
  omega

theorem Entry.topped_antisymm {x y : Entry} (h : x.topped y) (k : y.topped x) :
    x.owner = y.owner ∧ x.pump = y.pump := by
  simp only [Entry.topped, Fin.lt_def, Fin.le_def, Fin.ext_iff] at *
  omega

theorem Entry.outranks_topped {e x : Entry} (h : e.outranks x = true) : x.topped e := by
  simp only [Entry.outranks, Bool.or_eq_true, Bool.and_eq_true, decide_eq_true_eq] at h
  simp only [Entry.topped, Fin.lt_def, Fin.le_def, Fin.ext_iff] at *
  omega

theorem Entry.topped_of_not_outranks {e x : Entry} (h : e.outranks x = false) : e.topped x := by
  simp only [Entry.outranks, Bool.or_eq_false_iff, Bool.and_eq_false_iff, decide_eq_false_iff_not] at h
  simp only [Entry.topped, Fin.lt_def, Fin.le_def, Fin.ext_iff] at *
  omega

/-- There is no victim exactly where no entry may be shed. -/
theorem victim_none {es : List Entry} : victim es = none ↔ ∀ e ∈ es, ¬ e.mayBeShed := by
  induction es with
  | nil => simp [victim]
  | cons e es ih =>
    unfold victim
    split
    · next h =>
      have := ih.1 h
      simpa [← Entry.sheddable_iff] using fun _ => this
    · next x h =>
      have := ih.not.1 (by simp [h])
      simp only [not_forall] at this
      obtain ⟨y, hy, hs⟩ := this
      constructor
      · intro k; split at k <;> simp at k
      · intro k; exact absurd (k y (List.mem_cons_of_mem _ hy)) hs

/-- The victim is an entry that may be shed and that tops every other such entry. -/
theorem victim_some {es : List Entry} {v : Entry} (h : victim es = some v) :
    v ∈ es ∧ v.mayBeShed ∧ ∀ x ∈ es, x.mayBeShed → x.topped v := by
  induction es generalizing v with
  | nil => simp [victim] at h
  | cons e es ih =>
    unfold victim at h
    split at h
    · next hn =>
      split at h
      · next hs =>
        obtain rfl : e = v := by simpa using h
        refine ⟨List.mem_cons_self, (Entry.sheddable_iff e).1 hs, fun x hx hm => ?_⟩
        rcases List.mem_cons.1 hx with rfl | hx
        · exact Entry.topped_refl _
        · exact absurd hm (victim_none.1 hn x hx)
      · simp at h
    · next y hy =>
      obtain ⟨hmem, hshed, htop⟩ := ih hy
      split at h
      · next hs =>
        obtain rfl : e = v := by simpa using h
        rw [Bool.and_eq_true] at hs
        have hye := Entry.outranks_topped hs.2
        refine ⟨List.mem_cons_self, (Entry.sheddable_iff e).1 hs.1, fun x hx hm => ?_⟩
        rcases List.mem_cons.1 hx with rfl | hx
        · exact Entry.topped_refl _
        · exact Entry.topped_trans (htop x hx hm) hye
      · next hs =>
        obtain rfl : y = v := by simpa using h
        refine ⟨List.mem_cons_of_mem _ hmem, hshed, fun x hx hm => ?_⟩
        rcases List.mem_cons.1 hx with rfl | hx
        · refine Entry.topped_of_not_outranks ?_
          simpa [(Entry.sheddable_iff _).2 hm] using hs
        · exact htop x hx hm

/-- The own victim is the entry that shed selection picks, where the station owns it. -/
theorem State.ownVictim_iff (s : State) (p : Pump) :
    s.ownVictim p ↔ ∃ e, victim s.claims.entries = some e ∧ e.owner = s.own ∧ e.pump = p := by
  constructor
  · rintro ⟨e, hmem, ho, hp, hs, htop⟩
    cases hv : victim s.claims.entries with
    | none => exact absurd hs (victim_none.1 hv e hmem)
    | some x =>
      obtain ⟨xmem, xs, xtop⟩ := victim_some hv
      have := Entry.topped_antisymm (htop x xmem xs) (xtop e hmem hs)
      exact ⟨x, rfl, this.1.trans ho, this.2.trans hp⟩
  · rintro ⟨e, hv, ho, hp⟩
    obtain ⟨hmem, hs, htop⟩ := victim_some hv
    exact ⟨e, hmem, ho, hp, hs, htop⟩

/-- A shed evaluation stops the own RUNNING victim or does nothing (R50 to R52). -/
theorem State.shed_cases (s : State) :
    (∃ p, s.ownVictim p ∧ (s.chan p).state = .running ∧ s.shed = s.shedStop p) ∨
    ((∀ p, s.ownVictim p → (s.chan p).state ≠ .running) ∧ s.shed = s) := by
  cases hv : victim s.claims.entries with
  | none =>
    refine .inr ⟨fun p h => ?_, by simp [State.shed, hv]⟩
    obtain ⟨e, he, -⟩ := (s.ownVictim_iff p).1 h
    simp [hv] at he
  | some e =>
    by_cases h : e.owner = s.own ∧ (s.chan e.pump).state = .running
    · exact .inl ⟨e.pump, (s.ownVictim_iff _).2 ⟨e, hv, h.1, rfl⟩, h.2, by simp [State.shed, hv, h.1, h.2]⟩
    · refine .inr ⟨fun p hp hr => ?_, ?_⟩
      · obtain ⟨f, hf, ho, rfl⟩ := (s.ownVictim_iff p).1 hp
        obtain rfl : e = f := by simpa [hv] using hf
        exact h ⟨ho, hr⟩
      · simp only [State.shed, hv, Bool.and_eq_true, decide_eq_true_eq, h, if_false]

/-! ## Stops with FEEDBACK asserted (R68) -/

/-- A stop of a pump whose FEEDBACK is asserted queues no telegram and changes no other channel. -/
theorem State.stop_of_feedback {s : State} {p q : Pump} (hf : s.feedback p = true) (hq : q ≠ p) (r : StopReason) :
    (s.stop p r).chan q = s.chan q ∧ (s.stop p r).bus = s.bus := by
  have enter_chan : ∀ (u : State), (u.enter p .stopping).chan q = u.chan q ∧ (u.enter p .stopping).bus = u.bus :=
    fun u =>
    ⟨State.modChan_chan_ne u hq (fun c => { c with state := .stopping, runLine := ChanState.stopping.drives }), rfl⟩
  unfold State.stop
  rw [if_pos (by rw [ChanFrame.feedback ((ChanFrame.modChan p _ s rfl rfl).trans (ChanFrame.enter p _ _)), hf])]
  exact ⟨(enter_chan _).1.trans (State.modChan_chan_ne s hq _), (enter_chan _).2⟩

/-- Where FEEDBACK is asserted in every RUNNING channel, a shed evaluation queues no telegram and changes no channel but
the own victim (R51, R52). -/
theorem State.shed_of_feedbackInv {s : State} (h : s.FeedbackInv) :
    s.shed.bus = s.bus ∧ ∀ q, ¬ s.ownVictim q → s.shed.chan q = s.chan q := by
  rcases s.shed_cases with ⟨p, hv, hr, he⟩ | ⟨-, he⟩
  · have hp : ∀ q, q ≠ p → (s.shedStop p).chan q = s.chan q ∧ (s.shedStop p).bus = s.bus := fun q hq =>
      State.stop_of_feedback (s := s.count (fun c => { c with sheds := bump c.sheds })) (h p (.inl hr)) hq .shed
    obtain ⟨q, hq⟩ : ∃ q : Pump, q ≠ p := ⟨p + 1, (by decide : ∀ p : Pump, p + 1 ≠ p) p⟩
    rw [he]
    exact ⟨(hp q hq).2, fun q' hn => (hp q' fun e => hn (e ▸ hv)).1⟩
  · rw [he]
    exact ⟨rfl, fun _ _ => rfl⟩

/-! ## One contest at a time (R96, R100) -/

theorem State.bidInFlight_eq_false (s : State) :
    s.bidInFlight = false ↔ ∀ p, (s.chan p).state.inContest = false := by
  simp [State.bidInFlight, allPumps, Fin.forall_fin_succ]

/-- A station with no bid in flight has one contest at most. -/
theorem State.OneContestInv.of_none {s : State} (h : s.bidInFlight = false) : s.OneContestInv := fun p _ hp _ => by
  simp [(s.bidInFlight_eq_false).1 h p] at hp

/-! ## The mismatching peer (R160 to R162) -/

theorem State.mismatches_iff (s : State) (a : Station) : s.mismatches a = true ↔ s.mismatching a := by
  unfold State.mismatches State.mismatching
  cases (s.rosterOf a).digest with
  | none => simp
  | some d => simp [and_assoc, @eq_comm _ s.loader.digest]

/-- The mismatching peer is the lowest mismatching station. -/
theorem State.lowestMismatch_iff (s : State) (a : Station) :
    s.lowestMismatch = some a ↔ s.mismatching a ∧ ∀ b, s.mismatching b → a ≤ b := by
  simp only [← State.mismatches_iff, State.lowestMismatch]
  generalize s.mismatches = q
  have hmem : ∀ b : Station, b ∈ allStations := by decide
  have hord : allStations.Pairwise (· < ·) := by decide
  constructor
  · intro h
    obtain ⟨hq, as, bs, hsplit, hbefore⟩ := List.find?_eq_some_iff_append.1 h
    refine ⟨hq, fun b hb => ?_⟩
    have hb' := hmem b
    rw [hsplit] at hb' hord
    rcases List.mem_append.1 hb' with hb' | hb'
    · have := hbefore b hb'
      rw [hb] at this
      simp at this
    · rcases List.mem_cons.1 hb' with rfl | hb'
      · exact Nat.le_refl _
      · exact Nat.le_of_lt ((List.pairwise_cons.1 (List.pairwise_append.1 hord).2.1).1 b hb')
  · rintro ⟨hq, hmin⟩
    cases hf : allStations.find? q with
    | none => exact absurd hq (List.find?_eq_none.1 hf a (hmem a))
    | some c =>
      obtain ⟨hc, as, bs, hsplit, hbefore⟩ := List.find?_eq_some_iff_append.1 hf
      have hac := hmin c hc
      have ha := hmem a
      rw [hsplit] at ha hord
      rcases List.mem_append.1 ha with ha | ha
      · have := hbefore a ha
        rw [hq] at this
        simp at this
      · rcases List.mem_cons.1 ha with rfl | ha
        · rfl
        · have := (List.pairwise_cons.1 (List.pairwise_append.1 hord).2.1).1 a ha
          exact absurd (Nat.lt_of_lt_of_le this hac) (Nat.lt_irrefl _)

/-! ## What a report leaves in the file (R165, R168) -/

/-- After a report its key stands unacknowledged, or the overflow mark is set. -/
theorem FaultFile.take_shows (f : FaultFile) (b : Bool) (k : FaultKey) (n : Nat) : (f.take b k n).shows k := by
  unfold FaultFile.take
  split
  · next h =>
    obtain ⟨r, hr, hk⟩ := List.any_eq_true.1 h
    have hk : r.key = k := by simpa using hk
    exact .inl ⟨r.again b, List.mem_map.2 ⟨r, hr, if_pos hk⟩, hk, rfl⟩
  · split
    · exact .inl ⟨_, List.mem_append_right _ List.mem_cons_self, rfl, rfl⟩
    · exact .inr rfl

/-- A report leaves the records of every other key as they are. -/
theorem FaultFile.take_other {f : FaultFile} {b : Bool} {k : FaultKey} {n : Nat} {r : FaultRecord} (h : r.key ≠ k) :
    r ∈ (f.take b k n).records ↔ r ∈ f.records := by
  unfold FaultFile.take
  split
  · simp only [List.mem_map]
    constructor
    · rintro ⟨q, hq, he⟩
      split at he
      · next hk => exact absurd (he ▸ hk) h
      · exact he ▸ hq
    · exact fun hr => ⟨r, hr, if_neg h⟩
  · split
    · simp only [List.mem_append, List.mem_singleton]
      exact ⟨fun hr => hr.elim id (fun e => absurd (e ▸ rfl) h), .inl⟩
    · rfl

/-- After the end of a condition no record of its key stands. -/
theorem FaultFile.finish_ended (f : FaultFile) (k : FaultKey) : (f.finish k).ended k := by
  intro r hr hk
  obtain ⟨q, -, rfl⟩ := List.mem_map.1 hr
  by_cases hs : q.stands k = true
  · rw [if_pos hs]
  · rw [if_neg hs] at hk ⊢
    have : ¬ (q.key = k ∧ q.standing = true) := by simpa [FaultRecord.stands] using hs
    exact Bool.eq_false_iff.2 fun hst => this ⟨hk, hst⟩

/-- The end of a condition leaves the records of every other key as they are. -/
theorem FaultFile.finish_other {f : FaultFile} {k : FaultKey} {r : FaultRecord} (h : r.key ≠ k) :
    r ∈ (f.finish k).records ↔ r ∈ f.records := by
  have hs : r.stands k = false := by simp [FaultRecord.stands, h]
  constructor
  · intro hr
    obtain ⟨q, hq, he⟩ := List.mem_map.1 hr
    split at he
    · next hk =>
      have : q.key = k := by simp only [FaultRecord.stands, Bool.and_eq_true, decide_eq_true_eq] at hk; exact hk.1
      exact absurd (he ▸ this) h
    · exact he ▸ (List.mem_filter.1 hq).1
  · intro hr
    exact List.mem_map.2 ⟨r, List.mem_filter.2 ⟨hr, by simp [hs]⟩, by simp [hs]⟩

theorem FaultFile.keeps_refl (which : FaultKey → Prop) (f : FaultFile) : f.keeps which f := fun _ _ => Iff.rfl

theorem FaultFile.keeps_trans {which : FaultKey → Prop} {f g h : FaultFile} (k : f.keeps which g)
    (l : g.keeps which h) : f.keeps which h := fun r hr => (l r hr).trans (k r hr)

/-- Fewer keys are kept too. -/
theorem FaultFile.keeps_mono {which more : FaultKey → Prop} {f g : FaultFile} (k : f.keeps more g)
    (h : ∀ key, which key → more key) : f.keeps which g := fun r hr => k r (h _ hr)

/-- A report keeps the records of keys other than its own. -/
theorem FaultFile.keeps_take {which : FaultKey → Prop} {k : FaultKey} (h : ¬ which k) (b : Bool) (n : Nat)
    (f : FaultFile) : f.keeps which (f.take b k n) :=
  fun _ hr => FaultFile.take_other fun he => h (he ▸ hr)

/-- The end of a condition keeps the records of keys other than its own. -/
theorem FaultFile.keeps_finish {which : FaultKey → Prop} {k : FaultKey} (h : ¬ which k) (f : FaultFile) :
    f.keeps which (f.finish k) :=
  fun _ hr => FaultFile.finish_other fun he => h (he ▸ hr)

/-- The alarm line follows every change of the file. -/
theorem State.changeFile_alarm (f : FaultFile → FaultFile) (s : State) : AlarmFollows s (s.changeFile f) := by
  unfold AlarmFollows
  rw [State.changeFile_faults, (FileFrame.changeFile f s).field, (FileFrame.changeFile f s).now]
  unfold State.changeFile State.alarmFollow
  refine ⟨fun h => by simp [h], fun h => ⟨fun h1 h2 => ⟨fun h3 => ?_, fun h3 => ?_⟩, fun h1 => ?_⟩⟩
  · simp [h, h1, h2, h3, State.startPulse]
  · simp [h, h1, h2, h3]
  · rcases h1 with h1 | h1 <;> simp [h, h1]

/-! ## The hand-offs of a change of the table (R4, R48) -/

/-- OVER_BUDGET follows the counted load, where the action itself recorded nothing under its key. -/
theorem State.followBudget_follows {u s : State} (himg : s.img = u.img)
    (hfile : ∀ r ∈ s.faults.records, r.key = ⟨.overBudget, none, none, none⟩ → r ∈ u.faults.records) :
    BudgetFollows u (s.followBudget u.loadSum) := by
  have hload : (s.followBudget u.loadSum).loadSum = s.loadSum := by
    simp only [State.loadSum, State.followBudget_claims]
  unfold BudgetFollows
  rw [hload]
  unfold State.followBudget
  simp only [State.countedLoad_eq_loadSum, himg, Bool.and_eq_true, decide_eq_true_eq]
  split
  · next h =>
    rw [State.reportCondition_faults]
    exact ⟨fun _ _ => FaultFile.take_shows _ _ _ _, fun k => by omega, fun k => by omega⟩
  · split
    · next h =>
      rw [State.reportEnd_faults]
      exact ⟨fun _ _ => by omega, fun _ _ => FaultFile.finish_ended _ _, fun k => by omega⟩
    · next h1 h2 => exact ⟨fun a b => absurd ⟨a, b⟩ h1, fun a b => absurd ⟨a, b⟩ h2, fun _ => hfile⟩

/-- TABLE_FULL ends, and is no longer in force, where an entry is free; the action itself recorded nothing of its
kind. -/
theorem State.followRoom_follows {u s : State} (hfull : s.claims.full = u.claims.full)
    (hfile : u.faults.keepsKind .tableFull s.faults) : RoomFollows u s.followRoom := by
  unfold RoomFollows
  rw [State.followRoom_entries]
  intro hroom
  have hr := (s.hasRoom_iff).2 hroom
  unfold State.followRoom
  rw [hr, Bool.and_true, hfull]
  split
  · next h =>
    rw [State.reportEnd_faults, (FileFrame.reportEnd _ _).claims]
    exact ⟨fun _ => FaultFile.finish_ended _ _, fun k => absurd h (by simp [k]), rfl⟩
  · next h => exact ⟨fun k => absurd k h, fun _ => hfile, by rw [hfull]; simpa using h⟩

/-! ## The bytes of an ANSWER (11.3) -/

theorem valueOf_append (bs cs : List Byte) : valueOf (bs ++ cs) = 256 ^ cs.length * valueOf bs + valueOf cs := by
  have key : ∀ (cs : List Byte) (n : Nat),
      cs.foldl (fun n b => 256 * n + b.toNat) n = 256 ^ cs.length * n + valueOf cs := by
    intro cs
    induction cs with
    | nil => intro n; simp [valueOf]
    | cons c cs ih =>
      intro n
      simp only [List.foldl_cons, List.length_cons, valueOf] at ih ⊢
      rw [ih (256 * n + c.toNat), ih (256 * 0 + c.toNat), Nat.pow_succ]
      ring
  simp only [valueOf, List.foldl_append]
  exact key cs _

theorem valueOf_nat16 (n : Nat) : valueOf (nat16 n) = n % 65536 := by
  simp only [valueOf, nat16, bytes16, List.foldl_cons, List.foldl_nil, BitVec.extractLsb'_toNat,
    BitVec.toNat_ofNat, Nat.shiftRight_eq_div_pow]
  omega

theorem valueOf_nat32 (n : Nat) : valueOf (nat32 n) = n % 4294967296 := by
  have : (nat16 n).length = 2 := rfl
  rw [nat32, valueOf_append, valueOf_nat16, valueOf_nat16, this]
  omega

theorem valueOf_bytes64 (w : BitVec 64) : valueOf (bytes64 w) = w.toNat := by
  simp only [valueOf, bytes64, List.foldl_cons, List.foldl_nil, BitVec.extractLsb'_toNat,
    Nat.shiftRight_eq_div_pow]
  have := w.isLt
  omega

end Sys2Proof.Machine
end

