-- ==== Sys2Proof/Laws/Stable.lean ====
section
/-! SUPPORT. What the operations at one channel do to another: nothing, unless the other has a bid in flight, whose
BID may be displaced (R137). From it: the settling leaves alone every channel that neither waits nor bids and whose
lines call for nothing. -/

namespace Sys2Proof.Machine

/-- Channel q and its request stay, if q has no bid in flight. -/
def Leaves (q : Pump) (s t : State) : Prop :=
  (s.chan q).state.inContest = false → t.chan q = s.chan q ∧ t.request q = s.request q

namespace Leaves

variable {q : Pump}

theorem refl (s : State) : Leaves q s s := fun _ => ⟨rfl, rfl⟩

theorem trans {s t u : State} (h : Leaves q s t) (k : Leaves q t u) : Leaves q s u := fun hc => by
  obtain ⟨h1, h2⟩ := h hc
  obtain ⟨k1, k2⟩ := k (by rw [h1]; exact hc)
  exact ⟨k1.trans h1, k2.trans h2⟩

theorem of_eq {s t : State} (h : t.pumps = s.pumps) (k : t.sched.request = s.sched.request) : Leaves q s t :=
  fun _ => ⟨by simp only [State.chan, h], by simp only [State.request, k]⟩

theorem ite {s a b : State} {c : Prop} [Decidable c] (ha : Leaves q s a) (hb : Leaves q s b) :
    Leaves q s (if c then a else b) := by
  split
  · exact ha
  · exact hb

theorem foldl {f : State → Pump → State} {ps : List Pump} (h : ∀ s, ∀ p ∈ ps, Leaves q s (f s p)) (s : State) :
    Leaves q s (ps.foldl f s) := by
  induction ps generalizing s with
  | nil => exact refl s
  | cons p ps ih =>
    exact (h s p (by simp)).trans (ih (fun s r hr => h s r (by simp [hr])) _)

theorem modChan {p : Pump} (h : q ≠ p) (f : Channel → Channel) (s : State) : Leaves q s (s.modChan p f) :=
  fun _ => ⟨State.modChan_chan_ne s h f, rfl⟩

theorem setRequest {p : Pump} (h : q ≠ p) (r : Option Request) (s : State) : Leaves q s (s.setRequest p r) :=
  fun _ => ⟨rfl, State.setRequest_request_ne s h r⟩

theorem setHold {p : Pump} (h : q ≠ p) (s : State) : Leaves q s (s.setHold p) := setRequest h _ s

theorem noteMove (old new : ChanState) (s : State) : Leaves q s (s.noteMove old new) := of_eq rfl rfl
theorem notePick (s : State) : Leaves q s s.notePick := of_eq rfl rfl
theorem noteEval (s : State) : Leaves q s s.noteEval := of_eq rfl rfl
theorem setQueue (x : List Telegram) (s : State) : Leaves q s (s.setQueue x) := of_eq rfl rfl
theorem cancel (x : Telegram → Bool) (s : State) : Leaves q s (s.cancel x) := of_eq rfl rfl
theorem hold (t : Telegram) (s : State) : Leaves q s (s.hold t) := of_eq rfl rfl
theorem countLost (s : State) : Leaves q s s.countLost := of_eq rfl rfl
theorem clearSlot (s : State) : Leaves q s s.clearSlot := of_eq rfl rfl

theorem followFreeze (old new : ChanState) (s : State) : Leaves q s (s.followFreeze old new) := by
  unfold State.followFreeze
  split
  · exact of_eq rfl rfl
  · split
    · exact of_eq rfl rfl
    · exact refl s

theorem enter {p : Pump} (h : q ≠ p) (new : ChanState) (s : State) : Leaves q s (s.enter p new) :=
  ((modChan h _ s).trans (followFreeze _ _ _)).trans (noteMove _ _ _)

theorem toQueued {p : Pump} (h : q ≠ p) (s : State) : Leaves q s (s.toQueued p) := (modChan h _ s).trans (enter h _ _)

theorem toQueuedHeld {p : Pump} (h : q ≠ p) (s : State) : Leaves q s (s.toQueuedHeld p) :=
  (toQueued h s).trans (setHold h _)

theorem available {p : Pump} (h : q ≠ p) (s : State) : Leaves q s (s.available p) :=
  ite (enter h _ s) (ite (enter h _ s) (enter h _ s))

theorem loseDisplaced (t : Telegram) (s : State) : Leaves q s (s.loseDisplaced t) := by
  cases t with
  | bid c =>
    intro hq
    by_cases hc : s.bidsUnder c.pump c.bid = true
    · have hne : q ≠ c.pump := by
        rintro rfl
        simp only [State.bidsUnder, Bool.and_eq_true, decide_eq_true_eq] at hc
        simp [hc.1, ChanState.inContest] at hq
      exact (ite ((countLost s).trans (toQueued hne _)) (countLost s)) hq
    · simp only [State.loseDisplaced, hc]
      exact countLost s hq
  | answer => exact (countLost s).trans (clearSlot _)
  | veto _ => exact countLost s
  | roll => exact countLost s
  | drop _ => exact countLost s
  | run _ => exact countLost s
  | commit _ => exact countLost s

theorem handForced (t : Telegram) (s : State) : Leaves q s (s.handForced t) := by
  unfold State.handForced
  split
  · exact setQueue _ s
  · exact (setQueue _ s).trans (loseDisplaced _ _)
  · exact countLost s

theorem queueDrop (p : Pump) (r : DropReason) (s : State) : Leaves q s (s.queueDrop p r) :=
  (cancel _ s).trans (ite (refl _) (handForced _ _))

theorem queueRun (p : Pump) (s : State) : Leaves q s (s.queueRun p) := by
  unfold State.queueRun
  split
  · exact refl s
  · exact (cancel _ s).trans (ite (hold _ _) (handForced _ _))

theorem loseUntaken (t : Telegram) (s : State) : Leaves q s (s.loseUntaken t) := by
  cases t with
  | bid c =>
    intro hq
    by_cases hc : s.bidsUnder c.pump c.bid = true
    · have hne : q ≠ c.pump := by
        rintro rfl
        simp only [State.bidsUnder, Bool.and_eq_true, decide_eq_true_eq] at hc
        simp [hc.1, ChanState.inContest] at hq
      exact (ite ((countLost s).trans (toQueuedHeld hne _)) (countLost s)) hq
    · simp only [State.loseUntaken, hc]
      exact countLost s hq
  | commit c =>
    intro hq
    by_cases hc : s.contendsUnder c.pump c.bid = true
    · have hne : q ≠ c.pump := by
        rintro rfl
        simp only [State.contendsUnder, Bool.and_eq_true, decide_eq_true_eq] at hc
        simp [hc.1, ChanState.inContest] at hq
      exact (ite (((countLost s).trans (toQueuedHeld hne _)).trans (queueDrop _ _ _)) (countLost s)) hq
    · simp only [State.loseUntaken, hc]
      exact countLost s hq
  | answer => exact (countLost s).trans (clearSlot _)
  | veto _ => exact countLost s
  | roll => exact countLost s
  | drop _ => exact countLost s
  | run _ => exact countLost s

theorem handIn (t : Telegram) (s : State) : Leaves q s (s.handIn t) := by
  unfold State.handIn
  split
  · exact setQueue _ s
  · exact (setQueue _ s).trans (loseDisplaced _ _)
  · exact loseUntaken t s

theorem handInRoll (s : State) : Leaves q s s.handInRoll := ite (refl s) (ite (hold _ s) (handIn _ s))
theorem handInBid (c : ClaimFields) (s : State) : Leaves q s (s.handInBid c) := ite (hold _ s) (handIn _ s)

theorem dropClaim {p : Pump} (h : q ≠ p) (r : DropReason) (s : State) : Leaves q s (s.dropClaim p r) :=
  (queueDrop p r s).trans (modChan h _ _)

theorem enterResting {p : Pump} (h : q ≠ p) (s : State) : Leaves q s (s.enterResting p) :=
  (enter h _ s).trans (ite (available h _) (modChan h _ _))

theorem confirmStop {p : Pump} (h : q ≠ p) (s : State) : Leaves q s (s.confirmStop p) :=
  ((dropClaim h _ s).trans (modChan h _ _)).trans (enterResting h _)

theorem stop {p : Pump} (h : q ≠ p) (r : StopReason) (s : State) : Leaves q s (s.stop p r) :=
  ((modChan h _ s).trans (enter h _ _)).trans (ite (refl _) (confirmStop h _))

theorem trip {p : Pump} (h : q ≠ p) (s : State) : Leaves q s (s.trip p) :=
  ((modChan h _ s).trans (enter h _ _)).trans (ite (refl _) (dropClaim h _ _))

theorem testStop {p : Pump} (h : q ≠ p) (s : State) : Leaves q s (s.testStop p) := ite (stop h _ s) (refl s)

theorem beginRunning {p : Pump} (h : q ≠ p) (s : State) : Leaves q s (s.beginRunning p) :=
  (((modChan h _ s).trans (enter h _ _)).trans (queueRun p _)).trans (testStop h _)

theorem confirmStart {p : Pump} (h : q ≠ p) (s : State) : Leaves q s (s.confirmStart p) :=
  (modChan h _ s).trans (beginRunning h _)

theorem enterStarting {p : Pump} (h : q ≠ p) (s : State) : Leaves q s (s.enterStarting p) :=
  (((setRequest h _ s).trans (modChan h _ _)).trans (enter h _ _)).trans (ite (confirmStart h _) (refl _))

theorem enterLocalRun {p : Pump} (h : q ≠ p) (s : State) : Leaves q s (s.enterLocalRun p) :=
  (((setRequest h _ s).trans (modChan h _ _)).trans (enter h _ _)).trans (queueRun p _)

theorem handOver {p : Pump} (h : q ≠ p) (s : State) : Leaves q s (s.handOver p) :=
  ((modChan h _ s).trans (enter h _ _)).trans (queueRun p _)

theorem handReturn {p : Pump} (h : q ≠ p) (s : State) : Leaves q s (s.handReturn p) :=
  ite ((modChan h _ s).trans (beginRunning h _)) (refl s)

theorem withdraw {p : Pump} (h : q ≠ p) (s : State) : Leaves q s (s.withdraw p) := by
  unfold State.withdraw
  split
  · exact ((cancel _ s).trans (ite (queueDrop p _ _) (refl _))).trans (modChan h _ _)
  · exact ((cancel _ s).trans (queueDrop p _ _)).trans (modChan h _ _)
  · exact refl s

theorem loseRequest {p : Pump} (h : q ≠ p) (s : State) : Leaves q s (s.loseRequest p) :=
  (withdraw h s).trans (setRequest h _ _)

theorem withdrawToQueued {p : Pump} (h : q ≠ p) (s : State) : Leaves q s (s.withdrawToQueued p) :=
  ite ((withdraw h s).trans (toQueued h _)) (refl s)

theorem heedLines {p : Pump} (h : q ≠ p) (s : State) : Leaves q s (s.heedLines p) :=
  ((ite (enterResting h s) (refl s)).trans (ite (trip h _) (refl _))).trans (ite (enterLocalRun h _) (refl _))

theorem evaluateAt {p : Pump} (h : q ≠ p) (s : State) : Leaves q s (s.evaluateAt p) := by
  have hr : ∀ c, Leaves q s (s.reclass p c) := by
    intro c
    unfold State.reclass
    split
    · exact ite (refl s) ((setRequest h _ s).trans (notePick _))
    · exact refl s
  have hl : Leaves q s ((s.loseRequest p).available p) := (loseRequest h s).trans (available h _)
  unfold State.evaluateAt
  split
  · split
    · exact ((setRequest h _ s).trans (enter h _ _)).trans (notePick _)
    · exact refl s
  · split
    · exact hr _
    · exact hl
  · split
    · exact hr _
    · exact hl
  · split
    · exact hr _
    · exact hl
  · exact refl s

theorem startBid {p : Pump} (h : q ≠ p) (c : Class) (s : State) : Leaves q s (s.startBid p c) := by
  have h0 : Leaves q s { s with pumps := { s.pumps with bidNumber := s.pumps.bidNumber + 1#8 } } :=
    fun _ => ⟨rfl, rfl⟩
  unfold State.startBid
  exact ((h0.trans (modChan h _ _)).trans (enter h _ _)).trans (handInBid _ _)

theorem ofTable {s t : State} (h : TableFrame s t) : Leaves q s t := of_eq h.pumps h.request

theorem islandStart {p : Pump} (h : q ≠ p) {s : State} (hj : s.judging = false) (c : Class) :
    Leaves q s (s.islandStart p c) := by
  have ht : Leaves q s (s.onTable (State.insertClaim s.own p (s.islandFields p c))) :=
    ofTable (TableFrame.onTable hj (TableFrame.insertClaim _ _ _ s))
  unfold State.islandStart
  split
  · exact (ht.trans (modChan h _ _)).trans (enterStarting h _)
  · exact ht.trans (setHold h _)

end Leaves

/-! ## A channel the settling leaves alone -/

/-- A channel that neither waits nor bids, and whose lines call for nothing. -/
def State.Settled (s : State) (q : Pump) : Prop :=
  (s.chan q).state ∉ [ChanState.idle, .queued, .bidding, .contending] ∧ s.lineQuiet q

theorem State.Settled.keep {s t : State} {q : Pump} (h : s.Settled q) (hf : SettleFrame s t)
    (hc : t.chan q = s.chan q) : t.Settled q := by
  obtain ⟨h1, h2, h3, h4⟩ := h
  refine ⟨by rw [hc]; exact h1, ?_, ?_, ?_⟩
  · have : t.tripReleasable q = s.tripReleasable q := by
      simp only [State.tripReleasable, State.overload, State.feedback, hc, hf.field, hf.trips]
    rw [this]; exact h2
  · simpa only [State.overload, hc, hf.field] using h3
  · simpa only [State.feedback, hc, hf.field] using h4

theorem State.Settled.noContest {s : State} {q : Pump} (h : s.Settled q) : (s.chan q).state.inContest = false := by
  have := h.1
  simp only [List.mem_cons, List.not_mem_nil, or_false, not_or] at this
  cases hs : (s.chan q).state <;> simp_all [ChanState.inContest]

/-- What a step of the settling does to a settled channel: nothing. -/
def Keeps (q : Pump) (s t : State) : Prop :=
  s.Settled q → t.chan q = s.chan q ∧ t.request q = s.request q

theorem Keeps.trans {q : Pump} {s t u : State} (h : Keeps q s t) (hf : SettleFrame s t) (k : Keeps q t u) :
    Keeps q s u := fun hs => by
  obtain ⟨h1, h2⟩ := h hs
  obtain ⟨k1, k2⟩ := k (hs.keep hf h1)
  exact ⟨k1.trans h1, k2.trans h2⟩

theorem Leaves.keeps {q : Pump} {s t : State} (h : Leaves q s t) : Keeps q s t := fun hs => h hs.noContest

theorem Keeps.heedLines (q p : Pump) (s : State) : Keeps q s (s.heedLines p) := by
  by_cases h : q = p
  · subst h
    intro hs
    rw [State.heedLines_quiet hs.2]
    exact ⟨rfl, rfl⟩
  · exact (Leaves.heedLines h s).keeps

theorem Keeps.evaluateAt (q p : Pump) (s : State) : Keeps q s (s.evaluateAt p) := by
  by_cases h : q = p
  · subst h
    intro hs
    have : s.evaluateAt q = s := by
      have := hs.1
      simp only [List.mem_cons, List.not_mem_nil, or_false, not_or] at this
      unfold State.evaluateAt
      split <;> simp_all
    rw [this]
    exact ⟨rfl, rfl⟩
  · exact (Leaves.evaluateAt h s).keeps

theorem Keeps.foldl {q : Pump} {f : State → Pump → State} (h : ∀ s p, Keeps q s (f s p))
    (hf : ∀ s p, ChanFrame s (f s p)) (ps : List Pump) (s : State) : Keeps q s (ps.foldl f s) := by
  induction ps generalizing s with
  | nil => exact fun _ => ⟨rfl, rfl⟩
  | cons p ps ih => exact (h s p).trans (SettleFrame.ofChan (hf s p)) (ih _)

theorem Keeps.heedAllLines (q : Pump) (s : State) : Keeps q s s.heedAllLines :=
  Keeps.foldl (fun s p => Keeps.heedLines q p s) (fun s p => ChanFrame.heedLines p s) allPumps s

theorem Keeps.evaluate (q : Pump) (s : State) : Keeps q s s.evaluate :=
  Keeps.trans (t := { s with sched := { s.sched with evalDue := false } }) (fun _ => ⟨rfl, rfl⟩)
    (SettleFrame.ofChan ⟨rfl, rfl, rfl, rfl, rfl, rfl, rfl, rfl, rfl, rfl, rfl, rfl, rfl, fun _ => rfl, fun _ => rfl⟩)
    (Keeps.foldl (fun s p => Keeps.evaluateAt q p s) (fun s p => SettleFrame.evaluateAt p s) allPumps _)

theorem Keeps.pick (q : Pump) (s : State) : Keeps q s s.pick := by
  intro hs
  unfold State.pick
  dsimp only
  split
  · exact ⟨rfl, rfl⟩
  · split
    · exact ⟨rfl, rfl⟩
    · next c k _ =>
      split
      · exact ⟨rfl, rfl⟩
      · next p hp =>
        have he := (List.mem_filter.1 (SettleFrame.firstOf_mem hp)).2
        simp only [State.eligibleIn, Bool.and_eq_true] at he
        have hq : q ≠ p := by
          rintro rfl
          have := SettleFrame.eligible_queued he.1
          exact hs.1 (by rw [show (s.chan q).state = .queued from this]; simp)
        have hn : (s.chan q).state.inContest = false := hs.noContest
        unfold State.handPick
        split
        · exact Leaves.startBid hq c { s with sched := { s.sched with pickDue := false, credits := k } } hn
        · next hna =>
          have hj : State.judging { s with sched := { s.sched with pickDue := false, credits := k } } = false := by
            simp only [State.judging]
            simp only at hna
            simp [hna]
          exact Leaves.islandStart hq hj c hn

theorem Keeps.settleLoop (q : Pump) (n : Nat) (s : State) : Keeps q s (State.settleLoop n s) := by
  induction n generalizing s with
  | zero => exact fun _ => ⟨rfl, rfl⟩
  | succ n ih =>
    unfold State.settleLoop
    dsimp only
    have hf := SettleFrame.ofChan (ChanFrame.heedAllLines s)
    split
    · exact ((Keeps.heedAllLines q s).trans hf (Keeps.evaluate q _)).trans
        (hf.trans (SettleFrame.ofChan (SettleFrame.evaluate _))) (ih _)
    · split
      · exact ((Keeps.heedAllLines q s).trans hf (Keeps.pick q _)).trans (hf.trans (SettleFrame.pick _)) (ih _)
      · exact Keeps.heedAllLines q s

theorem Keeps.clearMarks (q : Pump) (s : State) :
    Keeps q s { s with sched := { s.sched with evalDue := false, pickDue := false } } := fun _ => ⟨rfl, rfl⟩

/-- The settling leaves a settled channel and its request as they are. -/
theorem State.Settled.settle {s : State} {q : Pump} (h : s.Settled q) :
    s.settle.chan q = s.chan q ∧ s.settle.request q = s.request q :=
  (Keeps.settleLoop q Config.settleRounds s).trans (SettleFrame.settleLoop Config.settleRounds s)
    (Keeps.clearMarks q _) h

end Sys2Proof.Machine
end

