-- ==== Sys2Proof/Tests/Slice0.lean ====
section
/-! SUPPORT. Our own tests: the WellFormed smoke, the check word and telegrams written out byte by byte, small worked
examples of the spec, and for each statement a state and operands that meet its hypotheses. -/

open Sys2Proof Sys2Proof.Machine

namespace Sys2Proof.Tests

set_option Elab.async false

/-! ## A station to test on: station 2 of the example network (10.6), with both pumps on main 1 -/

/-- The image of 10.6, corrected: 151 bytes. -/
def image : List Byte :=
  [1, 0, 151, 0, 100, 0, 20, 2, 6, 2, 17, 65, 0, 1, 0, 6, 0, 8, 0, 0] ++
  [0, 0, 0, 0, 0, 0, 0, 0, 0, 0, 0, 20, 0, 0, 0, 0, 0, 0, 0, 0] ++
  [0, 0, 0, 0, 2, 88, 3, 32, 3, 32, 3, 0, 60, 0, 90, 0, 120, 1, 94, 1] ++
  [144, 0, 60, 1, 1, 1, 15, 1, 4, 1, 124, 5, 10, 0, 2, 0, 60, 0, 1, 1] ++
  [15, 0, 240, 1, 124, 5, 10, 0, 0, 0, 60, 1, 0, 0, 0, 0, 0, 0, 0, 0] ++
  [0, 0, 0, 0, 0, 0, 0, 0, 0, 0, 0, 0, 0, 0, 0, 0, 0, 0, 0, 0] ++
  [0, 0, 0, 0, 0, 0, 0, 0, 0, 0, 0, 0, 0, 0, 0, 0, 0, 0, 0, 0] ++
  [0, 0, 0, 0, 0, 0, 0, 0, 0, 55, 12]

/-- The lines of a house in which both pumps are under automatic control. -/
def lines : FieldLines :=
  ⟨#v[⟨false, false, true⟩, ⟨false, false, true⟩, .released, .released, .released, .released], false, false, false,
    false⟩

/-- Station 2, ACTIVE, at rest, 100 s after its reset; both channels idle, the tank levels at hand. -/
def base : State :=
  { State.afterReset lines 2 true [] with
    now := 100000
    loader := ⟨2, true, some (parseImage image), some (imageDigest image)⟩
    ctl := ⟨.active, none, true, false, none⟩
    pumps := ⟨#v[{ Channel.reset with state := .idle }, { Channel.reset with state := .idle }, .reset, .reset, .reset,
      .reset], 7⟩
    levels := ⟨⟨[130, 130, 130, 130, 130, 130, 130, 130], 0, true, some 130, some 99900⟩, .reset, .opened, none, false,
      false, some 300, false, none, false, none⟩
    bus := { Bus.reset with rollTimer := some 99000 } }

/-- The claim descriptor of the tests. -/
def desc : ClaimDesc := ⟨2, 7, false, false⟩

/-- A channel put into a state, with a claim or without. -/
def put (p : Pump) (st : ChanState) (d : Option ClaimDesc) (s : State) : State :=
  s.modChan p (fun c => { c with state := st, runLine := st.drives, claim := d })

/-- A mode. -/
def inMode (m : StationMode) (s : State) : State := { s with ctl := { s.ctl with mode := m } }

/-- A telegram on the bus. -/
def carrying (t : Sent) (s : State) : State := { s with bus := { s.bus with onBus := some t } }

/-- FEEDBACK of pump 0 asserted. -/
def fed (s : State) : State := s.setLines 0 ⟨true, false, true⟩

/-- The station after a command. -/
def after (c : Instr) (s : State) : State :=
  match exec c s with
  | .next t => t
  | .fault _ => s
  | .refused _ => s

/-- An entry of station 1, HELD. -/
def held1 : Entry := ⟨1, 0, 1, 20, 2, .held, 3, false, false, false⟩

/-- Our own entry for pump 0, HELD. -/
def own0 : Entry := ⟨2, 0, 1, 15, 2, .held, 7, false, false, false⟩

/-- A full table: 48 RUNNING entries of eight owners. -/
def fullTable : List Entry :=
  [0, 1, 3, 4, 5, 6, 7, 8].flatMap (fun o : Station => allPumps.map (fun p => ⟨o, p, 0, 1, 2, .running, 0, false, false,
    false⟩))

/-- A station in LOADING, so many ms after its reset. -/
def loadingAt (now : Nat) (f : FieldLines) (a : Addr) : State := { State.afterReset f a true [] with now := now }

/-- The own BID and COMMIT. -/
def claim0 : ClaimFields := ⟨0, 1, 15, 2, 7⟩

/-! ## WellFormed: an ill-formed term for each check is refused -/

theorem test_wf_image : WellFormed (.imageReadComplete [1#8]) = false ∧ WellFormed (.imageReadComplete image) = true := by
  decide +kernel
theorem test_wf_arbitration : WellFormed (.busIdleArbitration [[0#8]]) = false
    ∧ WellFormed (.busIdleArbitration [List.replicate 65 0#8]) = false
    ∧ WellFormed (.busIdleArbitration [List.replicate 64 0#8]) = true := by decide +kernel
theorem test_wf_bodies_empty :
    ([.bidReceived 1 [], .vetoReceived 1 [], .commitReceived 1 [], .runReceived 1 [], .dropReceived 1 [],
      .rollReceived 1 [], .askReceived 1 [], .holdReceived 1 [], .freeReceived 1 [], .shedReceived 1 [],
      .clearReceived 1 [], .purgeReceived 1 [], .answerReceived 1 [], .unknownKindReceived 9 0 1 []] :
      List Instr).map WellFormed = List.replicate 14 false := by decide +kernel
theorem test_wf_body_too_long : WellFormed (.answerReceived 1 (List.replicate 60 0#8)) = false
    ∧ WellFormed (.answerReceived 1 (List.replicate 59 0#8)) = true := by decide +kernel
theorem test_wf_kind_named : WellFormed (.unknownKindReceived 4 4 1 [0#8]) = false
    ∧ WellFormed (.unknownKindReceived 4 5 1 [0#8]) = true
    ∧ WellFormed (.unknownKindReceived 8 0 1 [0#8]) = false
    ∧ WellFormed (.unknownKindReceived 9 0 1 [0#8]) = true := by decide +kernel

/-! ## The check word, the digest and the telegrams (11.1, 11.2) -/

/-- The check function of R200 on the nine ASCII digits 1 to 9. -/
theorem test_check_word : checkWord [49, 50, 51, 52, 53, 54, 55, 56, 57] = 0x29B1#16 := by decide +kernel

/-- A BID of station 1, pump 0, main 1, load 20, class 2, bid number 3, byte by byte: kind priority 5 and source 1,
ten bytes, variant 0. -/
theorem test_bid_bytes : (encodeTelegram 5 1 [0, 1, 20, 2, 3]).take 8 = [0x51#8, 10, 0, 0, 1, 20, 2, 3]
    ∧ (encodeTelegram 5 1 [0, 1, 20, 2, 3]).length = 10
    ∧ decodeTelegram (encodeTelegram 5 1 [0, 1, 20, 2, 3]) = .bidReceived 1 [0, 1, 20, 2, 3] := by decide +kernel

/-- A telegram with one bit changed fails its check; a kind priority of 9 names no kind; a PURGE is variant 4. -/
theorem test_decode_telegram :
    decodeTelegram ((encodeTelegram 5 1 [0, 1, 20, 2, 3]).set 4 3) = .checkFailed
    ∧ decodeTelegram (encodeTelegram 9 1 [0]) = .unknownKindReceived 9 0 1 [0]
    ∧ commandOf 4 4 14 [3, 17, 65] = .purgeReceived 14 [3, 17, 65] := by decide +kernel

theorem test_bodies :
    decodeClaim [0, 1, 20, 2, 3] = some ⟨0, 1, 20, 2, 3⟩ ∧ decodeClaim [6, 1, 20, 2, 3] = none
    ∧ decodeClaim [0, 1, 64, 2, 3] = none ∧ decodeClaim [0, 1, 20, 2] = none
    ∧ decodeVeto [2, 0, 7, 4] = some ⟨2, 0, 7, .budget⟩ ∧ decodeVeto [14, 0, 7, 4] = none
    ∧ decodeRun [0, 1, 15, 1, 7, 1] = some ⟨0, 1, 15, 1, 7, true, false⟩
    ∧ decodeDrop [0, 2] = some ⟨0, .shed⟩ ∧ decodeDrop [0, 7] = none
    ∧ decodeAsk [255, 2, 6] = some ⟨.all, .claims, 6⟩ ∧ decodeOrder [2, 17, 65] = some ⟨.one 2, 4417⟩
    ∧ decodeShed [2, 17, 65, 1] = some ⟨(.one 2, 1), 4417⟩ ∧ decodePurge [15, 17, 65] = some ⟨15, 4417⟩ := by
  decide +kernel

/-- A ROLL of station 1 with one descriptor; a count that does not match, and a pump listed twice. -/
theorem test_roll_body :
    decodeRoll [2, 0, 13, 5, 0, 130, 255, 254, 1, 0, 1, 20, 2, 3, 3, 0]
      = some ⟨.active, false, 0x0D05, .cm 130, none, [⟨0, 1, 20, 2, .running, 3, false, false⟩]⟩
    ∧ decodeRoll [2, 0, 13, 5, 0, 130, 255, 254, 2, 0, 1, 20, 2, 3, 3, 0] = none
    ∧ decodeRoll [2, 0, 13, 5, 0, 130, 255, 254, 2, 0, 1, 20, 2, 3, 3, 0, 0, 1, 20, 2, 3, 3, 0] = none := by
  decide +kernel

theorem test_table_words : decodeTableWord 8 0 = none ∧ base.withFetchWord 8 0 = base := ⟨rfl, rfl⟩

set_option maxRecDepth 100000 in
/-- The image of 10.6 corrected is valid at station 2; with pump 1 on main 2 it is not, nor at station 3. -/
theorem test_image : imageValid image 2 = true ∧ imageValid (image.set 78 2) 2 = false
    ∧ imageValid image 3 = false ∧ imageValid [] 2 = false := by decide +kernel

/-! ## Worked examples of the spec -/

/-- R108: a span of 800 cm and a sample of 2048 give 400 cm. -/
theorem test_sample_level : sampleLevel 800 2048#12 = 400 ∧ sampleInRange 63#12 = false ∧ sampleInRange 4031#12 = true := by
  decide +kernel

/-- R109: the window of the example gives 128 cm. -/
theorem test_filtered : (⟨[130, 129, 129, 128, 128, 127, 127, 126], 0, true, none, none⟩ : LevelChannel).filtered
    = some 128 := by decide +kernel

/-- A start from demand to RUN: fire demand, the pick, the BID carried, the contest, the COMMIT carried, FEEDBACK. -/
def started : State :=
  ([.fireDemandChange true, .busIdleArbitration [], .telegramCarried, .acknowledgeSlotEnd true, .contestTimerExpiry 0,
    .busIdleArbitration [], .telegramCarried] : List Instr).foldl
    (fun s c => after c s) base

theorem test_start : (started.chan 0).state = .starting ∧ (started.chan 0).runLine = true
    ∧ started.entry 2 0 = some ⟨2, 0, 1, 15, 0, .starting, 7, false, false, false⟩
    ∧ started.resp.counters.commits = 1 ∧ started.levels.freeze = .frozen ∧ started.now = 100300 := by decide +kernel

/-- The victim of R50: the highest class, then the highest owner, then the highest pump. -/
theorem test_victim : victim [held1, ⟨1, 1, 1, 5, 3, .running, 0, false, false, false⟩,
    ⟨3, 0, 2, 5, 3, .running, 0, false, false, false⟩, ⟨3, 1, 2, 5, 3, .running, 0, true, false, false⟩]
    = some ⟨3, 0, 2, 5, 3, .running, 0, false, false, false⟩ := by decide +kernel

/-! ## Each statement's hypotheses are met -/

theorem witness_StepRunsFrontCommand : (base.withPending [.ackRises]).pending = .ackRises :: [] := rfl
theorem witness_IdleStepPassesOneMillisecond : base.pending = [] ∧ (started.chan 0).state ≠ .running := by decide +kernel
theorem witness_RosterAfterReset : (base.rosterOf 3).heard = false := by decide +kernel
set_option maxRecDepth 100000 in
theorem witness_ValidImageEntersListen :
    let s := loadingAt 5000 lines 2
    let f := fun l : PumpLines => loadingAt 5000 { lines with pump := lines.pump.set 0 l } 2
    s.ctl.mode = .loading ∧ s.LoadingInv ∧ Addr.station? s.loader.address = some 2
    ∧ imageValid image s.loader.address = true ∧ (parseImage image).present 0 = true
    ∧ (parseImage image).present 5 = false ∧ s.feedback 0 = false ∧ (f ⟨true, true, true⟩).feedback 0 = true
    ∧ (f ⟨true, true, true⟩).auto 0 = true ∧ (f ⟨true, true, true⟩).overload 0 = true
    ∧ (f ⟨true, false, false⟩).auto 0 = false ∧ (f ⟨true, true, true⟩).LoadingInv := by
  unfold State.LoadingInv; decide +kernel
theorem witness_UnfitImageHalts :
    let s := loadingAt 5000 lines 2
    base.ctl.mode ≠ .loading ∧ s.ctl.mode = .loading ∧ s.LoadingInv ∧ imageValid [] s.loader.address = false
    ∧ (loadingAt 5000 lines 14).LoadingInv ∧ Addr.station? (loadingAt 5000 lines 14).loader.address = none := by
  unfold State.LoadingInv; decide +kernel

/-- A fault record, and a station that has something to say under every topic. -/
def telling : State :=
  { put 0 .running (some desc) (base.setEntries [held1]) with
    faults := ⟨[⟨⟨.overload, some 0, none, some 1⟩, 12, 3, true, false⟩], false⟩
    resp := ⟨some ⟨.faults, 0, 14⟩, { base.resp.counters with carried := 300 }⟩ }

theorem witness_BodiesStateTheStation :
    telling.resp.slot = some ⟨.faults, 0, 14⟩ ∧ telling.loadSum = 20 ∧ telling.claims.entries.length = 1
    ∧ telling.faults.records.length = 1 ∧ telling.resp.counters.inOrder[0]? = some 300
    ∧ telling.content .faults 0 = [1, 66, 1, 255, 0, 12, 3]
    ∧ telling.content .station 0 = [2, 8, 0, 20, 1]
    ∧ (telling.content .counters 0).take 4 = [1, 44, 0, 0]
    ∧ (telling.content .channels 0).take 8 = [7, 112, 0, 0, 0, 0, 0, 0]
    ∧ ((base.setRoster 3 ⟨true, some 94000, true, some .active, some false, some 0x0D05, some (.cm 130), none⟩).content
        .roster 3).take 9 = [10, 61, 132, 23, 255, 13, 5, 0, 94] := by decide +kernel
/-- A page of two entries, byte by byte: an orphan, and one RUNNING manual of an island. -/
theorem witness_EntryStated :
    let s := base.setEntries [{ held1 with orphan := true }, ⟨2, 1, 7, 60, 3, .running, 9, true, true, false⟩]
    s.content .claims 0 = [2, 255, 1, 0, 1, 20, 2, 1, 3, 4, 2, 1, 7, 60, 3, 3, 9, 3]
    ∧ ((s.claims.entries.drop 0).take 6)[1]? = some ⟨2, 1, 7, 60, 3, .running, 9, true, true, false⟩
    ∧ ((s.claims.entries.drop 1).take 6)[0]? = some ⟨2, 1, 7, 60, 3, .running, 9, true, true, false⟩ := by decide +kernel
theorem witness_BusIdleOffersHead :
    base.bus.queue = [] ∧ (carrying (.drop ⟨0, .trip⟩) base).bus.onBus.isSome = true
    ∧ (base.setQueue [.drop ⟨0, .trip⟩]).build (.drop ⟨0, .trip⟩) = some (.drop ⟨0, .trip⟩)
    ∧ bytesBelow [0x10, 7] ((Sent.drop ⟨0, .trip⟩).bytes 2) = true
    ∧ bytesBelow [0x13, 7] ((Sent.drop ⟨0, .trip⟩).bytes 2) = false := by decide +kernel
theorem witness_OwnTelegramCarried :
    base.bus.onBus = none ∧ (carrying (.roll base.rollBody) base).bus.onBus = some (.roll base.rollBody)
    ∧ Addr.station? base.loader.address = some 2 := by decide +kernel

/-- A judging bidder whose BID is on the bus. -/
def bidding : State := carrying (.bid claim0) (put 0 .bidding (some desc) base)

theorem witness_OwnBidJudged :
    bidding.bus.Wf ∧ bidding.OrphanInv ∧ (bidding.chan 0).state = .bidding ∧ (bidding.chan 0).claim = some desc
    ∧ desc.bid = claim0.bid ∧ bidding.bus.waits (Telegram.isBidOf 0) = false
    ∧ (bidding.carrying (.bid claim0)).judging = true
    ∧ (bidding.carrying (.bid claim0)).judge 2 claim0 = none
    ∧ ((bidding.setEntries [held1]).carrying (.bid claim0)).judge 2 claim0 = some .mainBusy := by
  unfold Bus.Wf State.OrphanInv; decide +kernel
theorem witness_OwnCommitStarts :
    let s := carrying (.commit claim0) (put 0 .contending (some desc) (base.setEntries [own0]))
    s.OrphanInv ∧ (s.chan 0).state = .contending ∧ (s.chan 0).claim = some desc ∧ s.entry s.own 0 = some own0
    ∧ own0.bid = claim0.bid ∧ own0.state = .held ∧ s.feedback 0 = false ∧ (fed s).feedback 0 = true
    ∧ (fed s).overload 0 = false ∧ (s.setLines 0 ⟨true, true, true⟩).overload 0 = true
    ∧ (s.setLines 0 ⟨true, true, true⟩).feedback 0 = true ∧ (s.setLines 0 ⟨true, true, true⟩).OrphanInv := by
  unfold State.OrphanInv; decide +kernel

/-- The own BID and COMMIT of a channel withdrawn meanwhile: the table acts and the channel does not. -/
theorem witness_own_claim_withdrawn :
    let b := carrying (.bid claim0) (put 0 .queued none base)
    let r := carrying (.bid claim0) (put 0 .queued none (base.setEntries [held1]))
    let c := carrying (.commit claim0) (put 0 .queued none (base.setEntries [own0]))
    let other := carrying (.commit claim0) (put 0 .contending (some { desc with bid := 8 }) (base.setEntries [own0]))
    let vb := State.selfReceive (.bid claim0) (b.carrying (.bid claim0))
    let vr := State.selfReceive (.bid claim0) (r.carrying (.bid claim0))
    let vc := State.selfReceive (.commit claim0) (c.carrying (.commit claim0))
    b.OrphanInv ∧ r.OrphanInv ∧ c.OrphanInv ∧ other.OrphanInv ∧ (b.chan 0).state ≠ .bidding ∧ (c.chan 0).state ≠ .contending
    ∧ (other.chan 0).claim ≠ some desc ∧ (b.carrying (.bid claim0)).judge 2 claim0 = none
    ∧ (r.carrying (.bid claim0)).judge 2 claim0 = some .mainBusy ∧ (r.carrying (.bid claim0)).roomy
    ∧ vb.entry 2 0 = some own0 ∧ vb.chan 0 = b.chan 0 ∧ vr.chan 0 = r.chan 0 ∧ vr.resp.counters.bidsVetoed = 0
    ∧ vr.waiting (.veto ⟨2, 0, 7, .mainBusy⟩) ∧ vc.entry 2 0 = some { own0 with state := .starting }
    ∧ vc.chan 0 = c.chan 0 ∧ vc.resp.counters.commits = 0 := by
  unfold State.OrphanInv State.roomy State.waiting; decide +kernel

/-- An own VETO carried removes the HELD entry of its bid; an own ROLL leaves the entries. -/
theorem witness_own_veto :
    let f : VetoFields := ⟨1, 0, 3, .budget⟩
    let s := carrying (.veto f) (base.setEntries [held1, own0])
    let r := carrying (.roll base.rollBody) (base.setEntries [held1, own0])
    (s.rosterOf 2).silent = false ∧ s.ctl.mode ≠ .isolated
    ∧ (State.selfReceive (.veto f) (s.carrying (.veto f))).claims.entries = [own0]
    ∧ (after .telegramCarried r).claims.entries = [held1, own0] := by decide +kernel

/-- Both lines asserted at the own COMMIT: no RUN waits and the channel trips (log 12). -/
theorem test_commit_under_overload :
    let s := carrying (.commit claim0) (put 0 .contending (some desc) (base.setEntries [own0]))
    let t := after .telegramCarried (s.setLines 0 ⟨true, true, true⟩)
    (t.chan 0).state = .tripped ∧ (t.chan 0).lastStart = none ∧ t.bus.queue = [] := by decide +kernel
theorem witness_OwnRunAndDropAct :
    let s := put 0 .localRun (some desc) (fed (base.setEntries [own0]))
    (carrying (.run ⟨0, 1, 15, 2, 7, false, false⟩) s).OrphanInv ∧ (s.entry s.own 0).isSome = true
    ∧ base.hasRoom = true ∧ (s.chan 0).state = .localRun ∧ s.auto 0 = true ∧ s.feedback 0 = true
    ∧ s.bus.waits (Telegram.isRunOf 0) = false ∧ s.bus.held.any (Telegram.isRunOf 0) = false
    ∧ (carrying (.drop ⟨0, .trip⟩) s).OrphanInv ∧ (s.setLines 0 ⟨true, true, true⟩).overload 0 = true
    ∧ (s.setLines 0 ⟨true, true, true⟩).auto 0 = true ∧ (s.setLines 0 ⟨true, true, true⟩).feedback 0 = true := by
  unfold State.OrphanInv; decide +kernel

/-- Both lines asserted at the return from hand control: its RUN waits, and the channel trips (log 12). -/
theorem test_hand_return_under_overload :
    let s := put 0 .localRun (some desc) (fed (base.setEntries [own0]))
    let run : RunFields := ⟨0, 1, 15, 2, 7, false, false⟩
    let t := after .telegramCarried ((carrying (.run run) s).setLines 0 ⟨true, true, true⟩)
    (t.chan 0).state = .tripped ∧ (t.chan 0).claim = some ⟨2, 7, false, false⟩ ∧ t.bus.queue = [.run run] := by
  decide +kernel
theorem witness_SlotEndActsOnTheMode :
    let s := { base with bus := { base.bus with slotOpen := true, unacked := 2 } }
    base.bus.slotOpen = false ∧ s.bus.slotOpen = true ∧ s.ctl.mode = .active ∧ 2 ≤ s.bus.unacked
    ∧ (inMode .listen s).ctl.mode = .listen ∧ (inMode .isolated s).ctl.mode = .isolated
    ∧ base.bus.unacked < 2 ∧ (put 0 .bidding (some desc) s).bidInFlight = true := by decide +kernel
/-- A station that isolates with a bid in hand: the waiting COMMIT goes, and the DROP waits; so does that of a BID on the
bus, and a waiting BID goes. -/
theorem witness_Withdraws :
    let s := { base with bus := { base.bus with slotOpen := true, unacked := 2 } }
    let c := (put 0 .contending (some desc) s).setQueue [.commit claim0]
    let b := (put 0 .bidding (some desc) s).setQueue [.bid claim0]
    c.OneContestInv ∧ b.OneContestInv ∧ c.roomy ∧ c.noDrop 0
    ∧ (c.slotEnd false).bus.queue = [.drop ⟨0, .withdrawn⟩] ∧ (b.slotEnd false).bus.queue = []
    ∧ ((carrying (.bid claim0) b).slotEnd false).bus.queue = [.drop ⟨0, .withdrawn⟩]
    ∧ ¬ (put 1 .bidding (some desc) c).OneContestInv := by
  unfold State.OneContestInv State.roomy State.noDrop; decide +kernel

/-- At the entry into ISOLATED, and at the start of a mismatch, a full queue gives up its VETO and neither its ANSWER nor
its ROLL. -/
theorem witness_isolation_keeps_the_rest :
    let q : List Telegram := .veto ⟨1, 0, 3, .budget⟩ :: List.replicate 13 (.drop ⟨1, .trip⟩) ++ [.answer, .roll]
    let s := (put 0 .contending (some desc) base).setQueue q
    let after : List Telegram := List.replicate 13 (.drop ⟨1, .trip⟩) ++ [.drop ⟨0, .withdrawn⟩, .answer, .roll]
    s.OneContestInv ∧ s.roomyButVetos ∧ s.takesDrops 1 ∧ s.bus.size = 16 ∧ s.enterIsolated.bus.queue = after
    ∧ (s.startMismatch 1).bus.queue = after ∧ s.FeedbackInv
    ∧ s.enterIsolated.resp.counters.displaced = s.resp.counters.displaced := by
  unfold State.OneContestInv State.FeedbackInv State.roomyButVetos State.takesDrops; decide +kernel

/-- Both entries into ISOLATED are pick events. -/
theorem witness_isolated_picks :
    let s := { base with bus := { base.bus with slotOpen := true, unacked := 2 } }
    let l := { inMode .listen base with ctl := ⟨.listen, some 94000, false, false, none⟩ }
    (s.slotEnd false).ctl.mode = .isolated ∧ (s.slotEnd false).sched.pickDue = true
    ∧ l.ctl.listenTimer = some 94000 ∧ l.ctl.ackMark = false ∧ l.endListen.ctl.mode = .isolated
    ∧ l.endListen.sched.pickDue = true := by decide +kernel

/-- The three cases of a report, and the two of an end. -/
theorem witness_Takes_and_Ends :
    let k : FaultKey := bareKey .checkErrors
    let f : FaultFile := ⟨[⟨k, 12, 255, true, true⟩], false⟩
    let full : FaultFile := ⟨allPumps.map (fun p => ⟨⟨.overload, some p, none, none⟩, 0, 1, true, false⟩) ++
      [⟨bareKey .dryRun, 0, 1, true, false⟩, ⟨bareKey .isolated, 0, 1, true, false⟩], false⟩
    f.take false k 100 = ⟨[⟨k, 12, 255, true, false⟩], false⟩
    ∧ FaultFile.take true k 70000 ⟨[], false⟩ = ⟨[⟨k, 65535, 1, true, false⟩], false⟩
    ∧ full.records.length = 8 ∧ (∀ r ∈ full.records, r.key ≠ k) ∧ full.take false k 100 = ⟨full.records, true⟩
    ∧ f.finish k = ⟨[], false⟩ ∧ (f.take false k 100).finish k = ⟨[⟨k, 12, 255, false, false⟩], false⟩ := by
  decide +kernel

/-- The sixteenth failed check in PULSE: a pulse begins, or is held under MUTE; of a pending alarm nothing changes. -/
theorem witness_AlarmFollows :
    let s := { base with bus := { base.bus with window := 15 }, alarm := ⟨false, .pulse, none, false⟩ }
    let m := { s with field := { s.field with mute := true } }
    s.faults.pending = false ∧ (after .checkFailed s).faults.pending = true
    ∧ (after .checkFailed s).alarm = ⟨true, .pulse, some 100000, false⟩
    ∧ (after .checkFailed m).alarm = ⟨false, .pulse, none, true⟩
    ∧ (after .checkFailed { s with faults := ⟨[], true⟩ }).alarm = s.alarm
    ∧ (after .checkFailed { s with alarm := base.alarm }).alarm.driven = true := by decide +kernel
theorem witness_CheckFailureCounts :
    State.reset.receiverOn = false ∧ base.receiverOn = true ∧ base.bus.window < 16
    ∧ ({ base with bus := { base.bus with window := 15 } }).bus.window = 15
    ∧ 16 ≤ ({ base with bus := { base.bus with window := 16 } }).bus.window := by decide +kernel
theorem witness_ReceptionsCountedAndHeard :
    receptionSource (.askReceived 14 []) = some 14 ∧ receptionSource (.bidReceived 1 []) = some 1
    ∧ base.receiverOn = true ∧ State.reset.receiverOn = false ∧ Addr.station? 1 = some 1 := by decide +kernel
theorem witness_roll_heard :
    decodeRoll [2, 0, 13, 5, 0, 130, 255, 254, 0] = some ⟨.active, false, 0x0D05, .cm 130, none, []⟩
    ∧ receptionSource (.rollReceived 1 [2, 0, 13, 5, 0, 130, 255, 254, 0]) = some 1 := by decide +kernel
theorem witness_Quiet : base.Quiet ∧ (inMode .isolated base).Quiet ∧ (inMode .listen base).Quiet := by
  unfold State.Quiet State.MarksClear State.lineQuiet; decide +kernel
theorem witness_audible : base.audible 1 ∧ base.audible 14 := by
  refine ⟨fun a h => ?_, fun a h => ?_⟩
  · have : a = 1 := by simpa [Addr.station?] using h.symm
    subst this; decide +kernel
  · have : Addr.station? 14 = none := by decide +kernel
    simp [this] at h
theorem witness_ReceptionsIgnored :
    base.receiverOn = true ∧ decodeClaim [] = none ∧ decodeVeto [] = none ∧ decodeRun [] = none ∧ decodeDrop [] = none
    ∧ decodeRoll [] = none ∧ decodePurge [] = none ∧ Addr.station? 14 = none
    ∧ decodeAsk [3, 1, 0] = some ⟨.one 3, .station, 0⟩ ∧ base.addressed (.one 3) = false
    ∧ decodeShed [3, 17, 65, 0] = some ⟨(.one 3, 0), 4417⟩ ∧ decodeOrder [3, 17, 65] = some ⟨.one 3, 4417⟩ := by
  decide +kernel

/-- A bid of station 1 on the shared main. -/
def bid1 : ClaimFields := ⟨0, 1, 20, 2, 3⟩

theorem witness_RefusalTestsInOrder :
    base.receiverOn = true ∧ Addr.station? 1 = some 1 ∧ decodeClaim [0, 1, 20, 2, 3] = some bid1
    ∧ (base.accept 1).judging = true ∧ (base.accept 1).judge 1 bid1 = none
    ∧ ((base.setEntries [held1]).accept 1).judge 1 bid1 = some .duplicate
    ∧ (base.accept 1).judge 1 { bid1 with main := 0 } = some .membership
    ∧ ((base.setEntries [own0]).accept 1).judge 1 bid1 = some .mainBusy
    ∧ ((base.setEntries [{ own0 with state := .running, load := 81 }]).accept 1).judge 1 bid1 = some .budget
    ∧ ((base.setEntries [{ own0 with state := .running, load := 61 }]).accept 1).judge 1 bid1 = some .reserve
    ∧ ((base.setEntries [{ own0 with state := .running, load := 60 }]).accept 1).judge 1 bid1 = none
    ∧ ((base.setEntries (fullTable.map (fun e => { e with owner := 3 }))).accept 1).judge 1 bid1
        = some .tableFull := by decide +kernel
theorem witness_BidBecomesHeldEntry :
    let l := inMode .listen base
    (l.accept 1).judging = false ∧ (l.accept 1).entry 1 0 = none ∧ (l.accept 1).hasRoom = true
    ∧ (((l.setEntries [held1]).accept 1).entry 1 0).isSome = true
    ∧ ((l.setEntries (fullTable.map (fun e => { e with owner := 3 }))).accept 1).hasRoom = false
    ∧ ((l.setEntries (fullTable.map (fun e => { e with owner := 3 }))).accept 1).entry 1 0 = none := by decide +kernel

/-- The own pump 0 RUNNING with a claim of 60 LU of class 3, the victim of its table. -/
def victim0 : Entry := ⟨2, 0, 1, 60, 3, .running, 7, false, false, false⟩

/-- Station 2 with that claim. -/
def loaded : State := put 0 .running (some ⟨3, 7, false, false⟩) (base.setEntries [held1, victim0])

/-- What a change of the table hands on: a judging station above the cap stops its own victim, FEEDBACK asserted or
not; a learning one only records; below the cap the condition ends; a freed place ends TABLE_FULL. -/
theorem witness_HandedOn :
    let u := (fed loaded).accept 1
    let v := u.onRun 1 ⟨0, 1, 50, 2, 3, false, false⟩
    u.judging = true ∧ v.loadSum ≠ u.loadSum ∧ u.img.cap < v.loadSum ∧ u.loadSum ≤ u.img.cap
    ∧ (u.chan 0).state = .running ∧ v.ownVictim 0 ∧ ¬ v.ownVictim 1 ∧ u.feedback 0 = true
    ∧ (v.chan 0).state = .stopping ∧ v.resp.counters.sheds = 1
    ∧ (loaded.accept 1).feedback 0 = false ∧ (loaded.accept 1).noDrop 0 ∧ (loaded.accept 1).roomy
    ∧ (((inMode .listen loaded).accept 1).onRun 1 ⟨0, 1, 50, 2, 3, false, false⟩).chan 0
        = ((inMode .listen loaded).accept 1).chan 0
    ∧ v.img.cap < v.loadSum ∧ (v.onDrop 1 ⟨0, .stopped⟩).loadSum ≤ v.img.cap
    ∧ (({ base with claims := { base.claims with full := true } }).onDrop 1 ⟨0, .stopped⟩).claims.full = false := by
  unfold State.ownVictim Entry.mayBeShed State.noDrop State.roomy; decide +kernel

/-- A victim with FEEDBACK asserted leaves a bidding channel alone; one found with FEEDBACK released, which FeedbackInv
rules out, displaces its BID from a full queue, and leaves a contending channel alone. -/
theorem witness_ShedActs_of_a_bidder :
    let bid : List Telegram := List.replicate 15 (.drop ⟨2, .trip⟩) ++ [.bid ⟨1, 0, 3, 2, 7⟩]
    let b := (put 1 .bidding (some desc) loaded).setQueue bid
    let c := (put 1 .contending (some desc) loaded).setQueue bid
    let r : RunFields := ⟨0, 1, 50, 2, 3, false, false⟩
    ((fed b).accept 1).FeedbackInv ∧ ((fed b).chan 1).state = .bidding
    ∧ (((fed b).accept 1).onRun 1 r).chan 1 = ((fed b).accept 1).chan 1
    ∧ (((fed b).accept 1).onRun 1 r).ownVictim 0 ∧ ¬ (b.accept 1).FeedbackInv
    ∧ (((b.accept 1).onRun 1 r).chan 1).state = .queued ∧ ((c.accept 1).onRun 1 r).chan 1 = (c.accept 1).chan 1 := by
  unfold State.FeedbackInv State.ownVictim Entry.mayBeShed; decide +kernel
theorem witness_BidRefusedQueuesVeto :
    ((base.setEntries [held1]).accept 1).roomy ∧ (base.accept 1).judge 1 { bid1 with main := 0 } = some .membership := by
  unfold State.roomy; decide +kernel
theorem witness_VetoEndsTheBid :
    let s := put 0 .contending (some desc) (base.setEntries [held1, own0])
    decodeVeto [1, 0, 3, 4] = some ⟨1, 0, 3, .budget⟩ ∧ (s.accept 3).entry 1 0 = some held1 ∧ held1.bid = 3
    ∧ held1.state = .held ∧ (s.accept 3).entry 3 0 = none ∧ ((s.accept 3).chan 0).state = .contending
    ∧ ((s.accept 3).chan 0).claim = some desc ∧ (s.accept 3).own = 2
    ∧ ((base.setEntries [{ own0 with state := .running }]).accept 3).entry 2 0
        = some { own0 with state := .running } := by decide +kernel
/-- A VETO whose removal leaves the station above the cap: the own victim stops; where the full table is freed, the
TABLE_FULL condition ends. -/
theorem witness_veto_handed_on :
    let s := (fed loaded).setEntries [{ held1 with load := 30 }, { held1 with pump := 1, load := 50 }, victim0]
    let v := (s.accept 3).onVeto 3 ⟨1, 0, 3, .budget⟩
    let full := fullTable.set 0 { held1 with main := 0 }
    let t := { base with claims := { (base.setEntries full).claims with full := true } }
    (s.accept 3).judging = true ∧ v.loadSum ≠ (s.accept 3).loadSum ∧ v.img.cap < v.loadSum ∧ v.ownVictim 0
    ∧ (v.chan 0).state = .stopping ∧ (s.accept 3).own ≠ 1 ∧ (t.accept 3).entry 1 0 = some { held1 with main := 0 }
    ∧ (t.accept 3).claims.full = true ∧ ((t.accept 3).onVeto 3 ⟨1, 0, 3, .budget⟩).claims.full = false := by
  unfold State.ownVictim Entry.mayBeShed; decide +kernel
theorem witness_CommitActsOnTable :
    let s := base.setEntries [held1]
    (s.accept 1).entry 1 0 = some held1 ∧ held1.bid = bid1.bid ∧ held1.bid ≠ 9
    ∧ ((base.setEntries [{ held1 with state := .running }]).accept 1).entry 1 0 = some { held1 with state := .running }
    ∧ (base.accept 1).entry 1 0 = none ∧ (base.accept 1).hasRoom = true
    ∧ ((base.setEntries (fullTable.map (fun e => { e with owner := 3 }))).accept 1).hasRoom = false := by decide +kernel
theorem witness_RunActsOnTable :
    decodeRun [0, 1, 20, 2, 3, 0] = some ⟨0, 1, 20, 2, 3, false, false⟩
    ∧ ((base.setEntries [held1]).accept 1).entry 1 0 = some held1
    ∧ (base.accept 1).entry 1 0 = none ∧ (base.accept 1).hasRoom = true
    ∧ ((base.setEntries (fullTable.map (fun e => { e with owner := 3 }))).accept 1).hasRoom = false := by decide +kernel
/-- COMMIT and RUN where no DIVERGENCE is recorded, entry by entry: of the bid HELD, STARTING or RUNNING; a manual RUN of
another number or of a missing entry; a full table, which records TABLE_FULL alone. -/
theorem witness_no_divergence :
    let at1 := fun (e : Entry) => (base.setEntries [e]).accept 1
    let full := (base.setEntries (fullTable.map (fun e => { e with owner := 3 }))).accept 1
    let run : RunFields := ⟨0, 1, 20, 2, 3, false, false⟩
    ((at1 held1).onCommit 1 bid1).faults = base.faults
    ∧ ((at1 { held1 with state := .starting }).onCommit 1 bid1).faults = base.faults
    ∧ ((at1 { held1 with state := .starting }).onRun 1 run).faults = base.faults
    ∧ ((at1 { held1 with state := .running }).onRun 1 run).faults = base.faults
    ∧ ((at1 { held1 with state := .running }).onRun 1 { run with bid := 9, manual := true }).faults = base.faults
    ∧ ((base.accept 1).onRun 1 { run with manual := true }).faults = base.faults
    ∧ ((at1 held1).onRun 1 run).faults.records.map FaultRecord.key = [peerKey .divergence 1]
    ∧ (full.onCommit 1 bid1).faults.records.map FaultRecord.key = [bareKey .tableFull]
    ∧ (full.onRun 1 run).faults.records.map FaultRecord.key = [bareKey .tableFull] := by decide +kernel

/-- A ROLL that lists what the table holds records nothing; one that changes a field records one DIVERGENCE. -/
theorem witness_roll_without_change :
    let d := base.loader.digest.getD 0
    let u := (base.setEntries [{ held1 with state := .running }]).accept 1
    let same : RollBody := ⟨.active, false, d, .cm 130, none, [⟨0, 1, 20, 2, .running, 3, false, false⟩]⟩
    (u.onRoll 1 same).claims.entries = u.claims.entries ∧ (u.onRoll 1 same).faults = base.faults
    ∧ (u.onRoll 1 { same with claims := [] }).faults.records.map FaultRecord.key = [peerKey .divergence 1] := by
  decide +kernel

/-- A VETO that records no LATE_VETO: for another owner's STARTING entry, for another bid number, for none. -/
theorem witness_no_late_veto :
    let s := (base.setEntries [{ held1 with state := .starting }, { own0 with state := .running }]).accept 3
    (s.onVeto 3 ⟨1, 0, 3, .budget⟩).faults = base.faults ∧ (s.onVeto 3 ⟨2, 0, 8, .budget⟩).faults = base.faults
    ∧ (s.onVeto 3 ⟨2, 1, 7, .budget⟩).faults = base.faults ∧ s.entry 2 1 = none
    ∧ (s.onVeto 3 ⟨2, 0, 7, .budget⟩).faults.records.map FaultRecord.key = [peerKey .lateVeto 3] := by decide +kernel
theorem witness_DropRemovesEntry :
    base.receiverOn = true ∧ decodeDrop [0, 1] = some ⟨0, .stopped⟩ ∧ Addr.station? 13 = some 13 := by decide +kernel
theorem witness_RollReconcilesTable :
    decodeRoll [2, 0, 13, 5, 0, 130, 255, 254, 1, 0, 1, 20, 2, 3, 3, 0]
      = some ⟨.active, false, 0x0D05, .cm 130, none, [⟨0, 1, 20, 2, .running, 3, false, false⟩]⟩
    ∧ base.OrphanInv ∧ base.own = 2
    ∧ (base.accept 1).placesBefore 1 [⟨0, 1, 20, 2, .running, 3, false, false⟩] 0 = 0
    ∧ ((base.setEntries [held1]).accept 1).entry 1 0 = some held1 := by unfold State.OrphanInv; decide +kernel

/-- A table of 47 entries with none of station 9: of two claims a ROLL lists the first finds room and the second not. -/
theorem witness_placesBefore :
    let u := (base.setEntries (fullTable.drop 1)).accept 9
    let ds : List Descriptor := [⟨4, 1, 20, 2, .running, 3, false, false⟩, ⟨5, 1, 20, 2, .running, 3, false, false⟩]
    (base.setEntries (fullTable.drop 1)).OrphanInv ∧ u.entry 9 4 = none ∧ u.entry 9 5 = none
    ∧ u.placesBefore 9 ds 4 = 47 ∧ u.placesBefore 9 ds 5 = 48 := by unfold State.OrphanInv; decide +kernel

/-- A ROLL of another station takes a judging station above the cap: its victim stops. -/
theorem witness_roll_sheds :
    let u := (fed loaded).accept 1
    let d := base.loader.digest.getD 0
    let v := u.onRoll 1 ⟨.active, false, d, .cm 130, none, [⟨0, 1, 20, 2, .held, 3, false, false⟩,
      ⟨1, 2, 50, 2, .running, 4, false, false⟩]⟩
    u.judging = true ∧ u.loadSum ≤ u.img.cap ∧ v.loadSum ≠ u.loadSum ∧ u.img.cap < v.loadSum ∧ v.ownVictim 0
    ∧ u.ctl.mismatch = none ∧ v.ctl.mismatch = none ∧ base.img.remoteSource ≠ some 1 ∧ (v.chan 0).state = .stopping
    ∧ v.judging = true := by
  unfold State.ownVictim Entry.mayBeShed; decide +kernel

/-- A ROLL of the source station that states this level. -/
def rollOf (l : Level) (d : Digest) : RollBody := ⟨.active, false, d, l, none, []⟩

/-- The remote level: renewed, gone stale, and fresh again, with a running pump at its stop level stopped. -/
theorem witness_remoteLevel :
    let d := base.loader.digest.getD 0
    let u := base.accept 3
    let w := u.onRoll 3 (rollOf .invalid d)
    let r := (put 0 .running (some desc) (fed base)).modChan 0 (fun c => { c with currentRun := some 9000 })
    base.img.localSource = false ∧ base.img.remoteSource = some 3 ∧ u.levels.remote ≠ none ∧ w.levels.remote = none
    ∧ w.levels.blindTimer = some 100000 ∧ (w.onRoll 3 (rollOf (.cm 130) d)).levels.remote = some 130
    ∧ ((r.accept 3).onRoll 3 (rollOf (.cm 380) d)).mayStop 0 desc
    ∧ (((r.accept 3).onRoll 3 (rollOf (.cm 380) d)).chan 0).state = .stopping := by
  unfold State.mayStop; decide +kernel

/-- A digest mismatch starts at station 3's ROLL, is handed over to station 1, and ends when both agree; at its end a
station over the cap sheds. -/
theorem witness_MismatchFollows :
    let d := base.loader.digest.getD 0
    let u := (put 0 .contending (some desc) (base.setQueue [.veto ⟨1, 0, 3, .budget⟩])).accept 3
    let v := u.onRoll 3 (rollOf (.cm 300) 7)
    let w := (v.accept 1).onRoll 1 (rollOf (.cm 300) 7)
    let x := (w.accept 1).onRoll 1 (rollOf (.cm 300) d)
    let y := (x.accept 3).onRoll 3 (rollOf (.cm 300) d)
    let above := put 0 .running (some ⟨3, 7, false, false⟩)
      (((base.setEntries [{ held1 with load := 50 }, victim0]).accept 1).onRoll 1 { rollOf (.cm 300) 7 with
        claims := [⟨0, 1, 50, 2, .held, 3, false, false⟩] })
    u.ctl.mismatch = none ∧ v.ctl.mismatch = some 3 ∧ (v.chan 0).state = .queued ∧ v.waiting (.drop ⟨0, .withdrawn⟩)
    ∧ ¬ v.waiting (.veto ⟨1, 0, 3, .budget⟩) ∧ w.ctl.mismatch = some 1 ∧ x.ctl.mismatch = some 3
    ∧ y.ctl.mismatch = none ∧ y.sched.pickDue = true
    ∧ above.ctl.mismatch = some 1 ∧ above.ctl.mode = .active ∧ above.img.cap < above.loadSum
    ∧ (((above.accept 1).onRoll 1 { rollOf (.cm 300) d with claims := [⟨0, 1, 50, 2, .held, 3, false, false⟩] }).chan
        0).state ≠ .running := by unfold State.waiting; decide +kernel
theorem witness_AskTakesSlot :
    decodeAsk [2, 6, 7] = some ⟨.one 2, .roster, 7⟩ ∧ base.addressed (.one 2) = true ∧ base.addressed .all = true
    ∧ (base.accept 14).roomy ∧ ((base.setQueue [.answer]).accept 14).waiting .answer := by
  unfold State.roomy State.waiting; decide +kernel
theorem witness_OrdersObeyedUnderSiteCode :
    decodeOrder [2, 17, 65] = some ⟨.one 2, 4417⟩ ∧ decodeOrder [255, 17, 66] = some ⟨.all, 4418⟩
    ∧ base.img.siteCode = 4417 ∧ (base.accept 14).inUse 0 = true ∧ (base.accept 14).inUse 5 = false := by decide +kernel
theorem witness_ShedStopsOrUnrequests :
    decodeShed [2, 17, 65, 0] = some ⟨(.one 2, 0), 4417⟩ ∧ base.img.siteCode = 4417 ∧ (base.accept 14).inUse 0 = true
    ∧ (base.accept 14).inUse 5 = false ∧ (base.accept 14).noDrop 0 ∧ (base.accept 14).roomy
    ∧ ((put 0 .running (some desc) (fed base)).accept 14).feedback 0 = true
    ∧ ((put 0 .queued none base).accept 14).chan 0 = (put 0 .queued none base).chan 0 := by
  unfold State.noDrop State.roomy; decide +kernel
/-- FREE: the clearing of a set hold flag is a pick event, that of a set block on an idle channel an evaluation event. -/
theorem witness_free_events :
    let h := { base with ctl := { base.ctl with hold := true } }
    let b := base.modChan 0 (fun c => { c with serviceBlock := true })
    let r := put 0 .resting none b
    h.obeyFree.sched.pickDue = true ∧ h.obeyFree.sched.evalDue = false ∧ b.obeyFree.sched.evalDue = true
    ∧ b.obeyFree.sched.pickDue = false ∧ r.obeyFree.sched.evalDue = false ∧ base.obeyFree = base := by decide +kernel

/-- A channel withdrawn with its COMMIT waiting, its BID waiting, or its BID on the bus, by SHED, the release of AUTO,
gang stop (of the gang channel 1), lockout and a rise of FEEDBACK: BID and COMMIT are gone, and the DROP waits. -/
theorem witness_TelegramsWithdrawn :
    let c := fun p => (put p .contending (some desc) base).setQueue [.commit { claim0 with pump := p }]
    let b := fun p => (put p .bidding (some desc) base).setQueue [.bid { claim0 with pump := p }]
    let o := fun p => carrying (.bid { claim0 with pump := p }) (put p .bidding (some desc) base)
    let gang := fun s : State => (allPumps.foldl (fun s p => s.gangAt p) (s.setGang true)).bus.queue
    let w := fun p : Pump => [Telegram.drop ⟨p, .withdrawn⟩]
    (c 0).noDrop 0 ∧ (c 0).takesDrops 6 ∧ (b 0).oneBidOf 0 ∧ (o 0).oneBidOf 0
    ∧ ((c 0).obeyShed 0).bus.queue = w 0 ∧ ((b 0).obeyShed 0).bus.queue = [] ∧ ((o 0).obeyShed 0).bus.queue = w 0
    ∧ ((c 0).autoRelease 0).bus.queue = w 0 ∧ ((b 0).autoRelease 0).bus.queue = []
    ∧ ((o 0).autoRelease 0).bus.queue = w 0 ∧ gang (c 1) = w 1 ∧ gang (b 1) = [] ∧ gang (o 1) = w 1
    ∧ (c 0).enterLockout.bus.queue = w 0 ∧ (b 0).enterLockout.bus.queue = [] ∧ (o 0).enterLockout.bus.queue = w 0
    ∧ .drop ⟨0, .withdrawn⟩ ∈ ((c 0).feedbackRise 0).bus.queue
    ∧ .drop ⟨0, .withdrawn⟩ ∈ ((o 0).feedbackRise 0).bus.queue := by
  unfold State.noDrop State.takesDrops State.oneBidOf; decide +kernel

/-- The demand behind a bid lapses, here with the fire demand: the channel is idle again. -/
theorem witness_demand_lapses :
    let s := (put 0 .contending (some desc) { base with field := { lines with fireDemand := true } }).setRequest 0
      (some ⟨0, 95000, none⟩)
    let t := after (.fireDemandChange false) s
    s.Quiet ∧ s.receiverOn = true ∧ s.feedback 0 = false ∧ ({ s with field := lines }).demand 0 = none
    ∧ (t.chan 0).state = .idle ∧ t.bus.queue = [.drop ⟨0, .withdrawn⟩] := by
  unfold State.Quiet State.MarksClear State.lineQuiet; decide +kernel
theorem witness_AcknowledgementClearsFile :
    base.alarm.mode = .level ∧ ({ base with alarm := ⟨true, .pulse, some 99000, false⟩ }).alarm.mode = .pulse
    ∧ decodeOrder [2, 17, 65] = some ⟨.one 2, 4417⟩ ∧ base.img.siteCode = 4417 := by decide +kernel
theorem witness_PurgeRemovesSilentClaims :
    let s := base.setRoster 3 { RosterRecord.reset with heard := true, lastHeard := some 9000, silent := true }
    decodePurge [3, 17, 65] = some ⟨3, 4417⟩ ∧ Addr.station? 3 = some 3 ∧ s.own = 2
    ∧ ((s.accept 14).rosterOf 3).silent = true ∧ ((base.accept 14).rosterOf 3).silent = false
    ∧ Addr.station? 15 = none ∧ base.img.siteCode = 4417 := by decide +kernel
theorem witness_RollAndListenTimers :
    let s := { inMode .listen base with ctl := ⟨.listen, some 94000, true, false, none⟩ }
    base.bus.rollTimer = some 99000 ∧ base.roomy ∧ base.bus.carries (fun x => decide (x = .roll)) = false
    ∧ (carrying (.roll base.rollBody) base).bus.carries (fun x => decide (x = .roll)) = true
    ∧ s.ctl.listenTimer = some 94000 ∧ State.reset.bus.rollTimer = none ∧ base.ctl.mode ≠ .listen
    ∧ s.img.cap < (s.setEntries [{ held1 with load := 50 }, victim0]).loadSum := by
  unfold State.roomy; decide +kernel
theorem witness_SilenceMarksOrphans :
    let s := base.setRoster 3 { RosterRecord.reset with heard := true, lastHeard := some 94000 }
    let q := base.setRoster 3 { RosterRecord.reset with heard := true, lastHeard := some 9000, silent := true }
    s.receiverOn = true ∧ (3 : Station) ≠ s.own ∧ (s.rosterOf 3).heard = true ∧ (s.rosterOf 3).silent = false
    ∧ (s.rosterOf 3).lastHeard = some 94000 ∧ s.img.localSource = false ∧ s.img.remoteSource = some 3
    ∧ s.img.remoteSource ≠ some 1 ∧ s.levels.remote ≠ none ∧ (q.rosterOf 3).silent = true ∧ q.receiverOn = true := by
  decide +kernel

/-- The silence of the only mismatching station ends the mismatch; its next telegram starts it again. -/
theorem witness_silence_and_mismatch :
    let v := (base.accept 1).onRoll 1 (rollOf (.cm 300) 7)
    let w := (v.advance 6000).silence 1
    v.ctl.mismatch = some 1 ∧ (v.rosterOf 1).lastHeard = some 100000 ∧ w.ctl.mismatch = none
    ∧ (w.rosterOf 1).silent = true ∧ (w.accept 1).ctl.mismatch = some 1 := by decide +kernel
/-- A mismatch that starts at a silence, in a state no run reaches: a bidder of a station at rest is withdrawn. -/
theorem witness_silence_starts_a_mismatch :
    let r := base.setRoster 1 { RosterRecord.reset with heard := true, lastHeard := some 99000, digest := some 7 }
    let q := r.setRoster 3 { RosterRecord.reset with heard := true, lastHeard := some 94000 }
    let w := (put 0 .bidding (some desc) (q.setQueue [.bid claim0])).advance 6000
    w.OneContestInv ∧ w.FeedbackInv ∧ w.ctl.mismatch = none ∧ (w.silence 3).ctl.mismatch = some 1
    ∧ ((w.silence 3).chan 0).state = .queued ∧ (w.silence 3).bus.queue = []
    ∧ (w.silence 3).faults.records.map FaultRecord.key
        = [peerKey .peerSilent 3, peerKey .remoteLevelStale 3, peerKey .digestMismatch 1] := by
  unfold State.OneContestInv State.FeedbackInv; decide +kernel
theorem witness_ContestEndsInCommit :
    let s := (put 0 .contending (some desc) (base.setEntries [own0])).modChan 0 (fun c => { c with contest := some 99900 })
    let drops := List.replicate 15 (.drop ⟨1, .trip⟩)
    let roll := s.setQueue (drops ++ [.roll])
    let full := s.setQueue (.veto ⟨1, 0, 3, .budget⟩ :: drops)
    (s.chan 0).state = .contending ∧ (s.chan 0).contest = some 99900 ∧ (s.chan 0).claim = some desc
    ∧ s.entry s.own 0 = some own0 ∧ own0.bid = desc.bid ∧ own0.state = .held ∧ s.roomy ∧ roll.bus.Wf
    ∧ (∃ x ∈ roll.bus.queue, x.displaceable = true ∧ 3 < x.priority)
    ∧ 16 ≤ full.bus.size ∧ (∀ x ∈ full.bus.queue, x.displaceable = true → x.priority ≤ 3) ∧ full.noDrop 0
    ∧ (∃ x ∈ full.bus.queue, x.displaceable = true) := by
  unfold State.roomy Bus.Wf State.noDrop; decide +kernel
theorem witness_ConfirmTimersFailTheMove :
    let s := (put 0 .starting (some desc) base).modChan 0 (fun c => { c with startConfirm := some 99000 })
    let t := (put 0 .stopping (some desc) (fed base)).modChan 0 (fun c => { c with stopConfirm := some 99000 })
    (s.chan 0).state = .starting ∧ s.feedback 0 = false ∧ (s.chan 0).startConfirm = some 99000 ∧ s.noDrop 0 ∧ s.roomy
    ∧ (t.chan 0).state = .stopping ∧ t.feedback 0 = true ∧ (t.chan 0).stopConfirm = some 99000
    ∧ (base.chan 0).state ≠ .starting ∧ (base.chan 0).state ≠ .stopping := by
  unfold State.noDrop State.roomy; decide +kernel
theorem witness_RestRunAndHoldEnd :
    let s := (put 0 .resting none base).modChan 0 (fun c => { c with rest := some 99000 })
    let t := (put 0 .running (some desc) (fed base)).modChan 0 (fun c => { c with currentRun := some 500 })
    let u := { t with levels := { t.levels with remote := some 380 } }
    (s.chan 0).state = .resting ∧ (s.chan 0).rest = some 99000 ∧ (t.chan 0).state = .running
    ∧ (t.chan 0).currentRun = some 500 ∧ (t.chan 0).claim = some desc ∧ ¬ t.mustStop 0 ∧ ¬ t.mayStop 0 desc
    ∧ u.mayStop 0 desc ∧ (base.setRequest 0 (some ⟨2, 90000, some 99000⟩)).request 0 = some ⟨2, 90000, some 99000⟩
    ∧ base.request 0 = none := by
  unfold State.mustStop State.mayStop; decide +kernel

/-- Station 2 with a request of class 2 for pump 0, waiting for the guard interval of main 1 (20 s). -/
def guarded (m : StationMode) (c : Sys2Proof.Class) : State :=
  let s := (put 0 .queued none (inMode m base)).setRequest 0 (some ⟨c, 95000, none⟩)
  { s with claims := { s.claims with settle := s.claims.settle.set 1 (some 90000) } }

theorem witness_GuardIntervalPassedPicks :
    let s := guarded .active 2
    let w := s.advance (s.endOf 90000 (s.img.guard[(1 : Main)] * 1000) - s.now)
    let i := guarded .isolated 1
    let wi := i.advance (i.endOf 90000 (i.img.guard[(1 : Main)] * 1000) - i.now)
    s.claims.settle[(1 : Main)] = some 90000 ∧ s.bidInFlight = false ∧ w.now = 110000
    ∧ w.pickClass = some (2, ⟨0, 0, 0⟩) ∧ w.firstOf (allPumps.filter (w.eligibleIn 2)) = some 0
    ∧ s.ctl.mode = .active ∧ s.roomy ∧ wi.pickClass = some (1, ⟨0, 0, 0⟩)
    ∧ wi.firstOf (allPumps.filter (wi.eligibleIn 1)) = some 0 ∧ i.hasRoom = true ∧ i.feedback 0 = false
    ∧ i.overload 0 = false ∧ (guarded .active 2).pickClass = none := by unfold State.roomy; decide +kernel

/-- The other forms of a pick: a full queue, a BID on the bus, OVERLOAD asserted, a full table. -/
theorem witness_picks_that_fail :
    let drops := List.replicate 15 (.drop ⟨1, .trip⟩)
    let q := (guarded .active 2).setQueue (.veto ⟨1, 0, 3, .budget⟩ :: drops)
    let r := (guarded .active 2).setQueue (drops ++ [.roll])
    let o := (guarded .isolated 1).setLines 0 ⟨false, true, true⟩
    let f := (guarded .isolated 1).setEntries fullTable
    q.Quiet ∧ 16 ≤ q.bus.size ∧ (∀ x ∈ q.bus.queue, x.displaceable = true → x.priority ≤ 5)
    ∧ (q.advance 10000).pickClass = some (2, ⟨0, 0, 0⟩) ∧ r.bus.Wf
    ∧ (∃ x ∈ r.bus.queue, x.displaceable = true ∧ 5 < x.priority)
    ∧ (carrying (.bid claim0) (guarded .active 2)).bus.carries (fun x => match x with | .bid _ => true | _ => false) = true
    ∧ o.Quiet ∧ o.overload 0 = true ∧ (o.advance 10000).pickClass = some (1, ⟨0, 0, 0⟩) ∧ o.roomy
    ∧ f.Quiet ∧ f.hasRoom = false ∧ (f.advance 10000).pickClass = some (1, ⟨0, 0, 0⟩) := by
  unfold State.Quiet State.MarksClear State.lineQuiet Bus.Wf State.roomy; decide +kernel
theorem witness_guarded_quiet : (guarded .active 2).Quiet ∧ (guarded .isolated 1).Quiet := by
  unfold State.Quiet State.MarksClear State.lineQuiet; decide +kernel
theorem witness_SampleConversion : (base.input .a).sampleTimer = some 99900 ∧ sampleInRange 64#12 = true
    ∧ sampleInRange 4032#12 = false := by decide +kernel
theorem witness_SamplesMoveTheWindow :
    (base.input .a).sampleTimer = some 99900 ∧ (base.input .b).sampleTimer = none ∧ (base.input .a).window.length = 8
    ∧ (base.input .a).outOfRange < 2 ∧ base.levels.freeze = .opened
    ∧ (base.setInput .a ⟨[130], 2, true, none, some 99900⟩).input .a = ⟨[130], 2, true, none, some 99900⟩
    ∧ (base.takeSample .a 200#12).faults = base.faults ∧ ((base.takeSample .a 200#12).input .a).valid = true
    ∧ ((base.setInput .a ⟨[], 2, false, none, some 99900⟩).takeSample .a 5#12).faults.records.map FaultRecord.key
        = [bareKey .dryRun] := by
  decide +kernel
theorem witness_SuctionDrivesLockout :
    let l := fun b (s : State) => { s with levels := { s.levels with lockout := b } }
    let at7 := base.setInput .a { base.levels.a with window := [130, 130, 130, 130, 130, 130, 130] }
    let failing := base.setInput .a { base.levels.a with outOfRange := 2 }
    base.levels.a.sampleTimer = some 99900 ∧ sampleInRange 200#12 = true ∧ base.levels.freeze = .opened
    ∧ base.levels.a.window.length = 8 ∧ at7.levels.a.window.length = 7
    ∧ ((base.levels.a.window.drop 1).sum + sampleLevel base.img.spanA 200#12) / 8 = 117
    ∧ base.levels.lockout = false ∧ base.img.dry = 60 ∧ base.img.release = 90
    ∧ ((base.setInput .a { base.levels.a with window := List.replicate 8 60 }).levels.a.window.drop 1).sum / 8 ≤ 60
    ∧ (l true base).levels.lockout = true ∧ sampleInRange 4032#12 = false ∧ failing.levels.a.outOfRange = 2
    ∧ (l true failing).levels.lockout = true ∧ failing.levels.lockout = false := by decide +kernel
theorem witness_LevelTimersExpire :
    let s := { base with levels := { base.levels with holdOver := some 98000, blindTimer := some 1000, allowance := some 0,
                                                      lockoutUnrecorded := true, staleUnrecorded := true, remote := none } }
    let r := (put 0 .running (some desc) (fed s)).modChan 0 (fun c => { c with currentRun := some 2000 })
    let h := r.endFreeze
    let dry := (r.setInput .a { r.levels.a with window := List.replicate 8 60 }).endFreeze
    s.levels.holdOver = some 98000 ∧ s.levels.blindReached = false ∧ s.levels.blindTimer = some 1000
    ∧ s.levels.allowance = some 0 ∧ base.levels.holdOver = none ∧ base.levels.allowance = none
    ∧ (r.chan 0).currentRun = some 2000 ∧ (r.img.pumps[(0 : Pump)]).minRun * 1000 ≤ 2000 ∧ r.delivery = none
    ∧ ¬ r.mustStop 0 ∧ ¬ h.mustStop 0 ∧ ¬ h.mayStop 0 desc ∧ (∀ p, (h.chan p).state = (r.chan p).state)
    ∧ (h.chan 0).state = .running ∧ r.levels.a.filtered = some 130 ∧ dry.levels.lockout = true
    ∧ (dry.chan 0).state = .stopping := by unfold State.mustStop State.mayStop; decide +kernel
theorem witness_PulseAndMute :
    let s := { base with alarm := ⟨true, .pulse, some 99000, true⟩ }
    base.alarm.pulseTimer = none ∧ s.alarm.pulseTimer = some 99000 ∧ base.field.mute = false
    ∧ ({ base with field := { base.field with mute := true } }).field.mute = true ∧ base.faults.pending = false
    ∧ ({ base with faults := ⟨[], true⟩ }).faults.pending = true := by decide +kernel
theorem witness_FeedbackRiseActs :
    let s := (put 0 .starting (some desc) base).modChan 0 (fun c => { c with startConfirm := some 99000 })
    let dry := { s with levels := { s.levels with lockout := true } }
    base.feedback 0 = false ∧ (fed base).feedback 0 = true ∧ base.inUse 0 = true ∧ base.inUse 5 = false
    ∧ (s.chan 0).startConfirm = some 99000 ∧ ¬ s.mustStop 0 ∧ (s.img.pumps[(0 : Pump)]).minRun ≠ 0 ∧ s.noRun 0 ∧ s.roomy
    ∧ s.bus.size + 1 < 16 ∧ s.noDrop 0 ∧ dry.mustStop 0 ∧ (dry.chan 0).state = .starting
    ∧ ((put 0 .idle none base).chan 0).state.yieldsToHand = true
    ∧ ((put 0 .bidding (some desc) base).chan 0).state.inContest = true
    ∧ ((put 0 .contending (some desc) base).chan 0).state = .contending
    ∧ ((put 0 .tripped none base).chan 0).claim = none ∧ ((put 0 .tripped (some desc) base).chan 0).claim ≠ none
    ∧ (put 0 .running (some desc) base).feedback 0 = false := by
  unfold State.mustStop State.noRun State.noDrop State.roomy; decide +kernel
/-- The last channel leaves STARTING or STOPPING: the hold-over begins; while another stops, the freeze stays; a start that
must stop at once keeps it. -/
theorem witness_FreezeReleased :
    let z := fun (s : State) => { s with levels := { s.levels with freeze := .frozen } }
    let s := z ((put 0 .starting (some desc) base).modChan 0 (fun c => { c with startConfirm := some 99000 }))
    let t := z (put 0 .stopping (some desc) (fed base))
    let two := put 1 .stopping (some desc) s
    let dry := { s with levels := { s.levels with lockout := true } }
    (∀ q : Pump, q ≠ 0 → (s.chan q).state ≠ .starting ∧ (s.chan q).state ≠ .stopping)
    ∧ (two.chan 1).state = .stopping ∧ (after (.feedbackRises 0) s).levels.holdOver = some 100000
    ∧ (after (.feedbackRises 0) two).levels.freeze = .frozen ∧ (after (.feedbackRises 0) dry).levels.freeze = .frozen
    ∧ (after (.feedbackFalls 0) t).levels.freeze = .holdOver
    ∧ (after (.startConfirmExpiry 0) s).levels.freeze = .holdOver := by decide +kernel
theorem witness_FeedbackFallActs :
    let s := (put 0 .stopping (some desc) (fed base)).modChan 0 (fun c => { c with stopReason := some .shed })
    s.feedback 0 = true ∧ s.inUse 0 = true ∧ (s.chan 0).stopReason = some .shed ∧ s.noDrop 0 ∧ s.roomy
    ∧ (s.img.pumps[(0 : Pump)]).minRest ≠ 0 ∧ (put 5 .resting none (fed base)).inUse 5 = false := by
  unfold State.noDrop State.roomy; decide +kernel
theorem witness_OverloadTrips :
    let k : FaultKey := ⟨.overload, some 0, none, some 1⟩
    let s := (put 0 .tripped none (base.setLines 0 ⟨false, true, true⟩)).modChan 0 (fun c => { c with tripAck := true })
    let a := { s with faults := ⟨[⟨k, 12, 1, true, true⟩], false⟩ }
    base.overload 0 = false ∧ base.inUse 0 = true ∧ base.inUse 5 = false ∧ s.overload 0 = true ∧ s.feedback 0 = false
    ∧ (s.chan 0).tripAck = true ∧ s.faults.records = [] ∧ (s.img.pumps[(0 : Pump)]).minRest ≠ 0
    ∧ s.pumpKey .overload 0 = k ∧ ((put 0 .starting (some desc) base).chan 0).state.trips = true
    ∧ ((parseImage (image.set 76 0)).pumps[(0 : Pump)]).minRest = 0
    ∧ ∀ r ∈ a.faults.records, r.key = k ∧ r.standing = true ∧ r.acked = true := by decide +kernel
theorem witness_AutoHandsOver :
    let s := put 0 .localRun (some desc) ((fed base).setLines 0 ⟨true, false, false⟩)
    base.auto 0 = true ∧ s.auto 0 = false ∧ base.inUse 0 = true ∧ base.inUse 5 = false
    ∧ s.feedback 0 = true ∧ s.bus.has (Telegram.isRunOf 0) = false
    ∧ ((s.setEntries [own0]).entry (s.setEntries [own0]).own 0).isSome = true ∧ s.entry s.own 0 = none
    ∧ ¬ s.mustStop 0 ∧ s.roomy ∧ s.noRun 0 ∧ (s.setLines 0 ⟨true, true, false⟩).overload 0 = true
    ∧ (s.setLines 0 ⟨true, true, false⟩).auto 0 = false ∧ (s.setLines 0 ⟨true, true, false⟩).feedback 0 = true := by
  unfold State.mustStop State.noRun State.roomy; decide +kernel
theorem witness_GangStopLocksOut :
    base.field.gangStop = false ∧ base.receiverOn = true ∧ State.reset.receiverOn = false ∧ base.img.gang 1 = true
    ∧ (base.setGang true).field.gangStop = true ∧ (base.chan 1).state = .idle := by decide +kernel
theorem witness_DemandLinesEvaluate :
    let s := inMode .listen base
    let u := { s with field := { s.field with fireDemand := true } }
    s.field.fireDemand ≠ true ∧ s.ctl.mode = .listen ∧ (s.chan 0).state = .idle ∧ u.demand 0 = some 0
    ∧ s.demand 0 = none ∧ (put 0 .queued none s).demand 0 = none := by decide +kernel
theorem witness_DemandAndEligibility :
    (guarded .active 2).request 0 = some ⟨2, 95000, none⟩ ∧ base.demandAllowed 0 = true
    ∧ ({ base with levels := { base.levels with remote := some 120 } }).demand 0 = some 1
    ∧ ({ base with levels := { base.levels with remote := some 121 } }).demand 0 = some 2
    ∧ ({ base with levels := { base.levels with remote := some 350 }, field := { lines with offPeak := true } }).demand 0
        = some 3 := by decide +kernel
theorem witness_PickOrder :
    let s := ((guarded .active 0).advance 10000)
    let t := ((guarded .active 2).advance 10000)
    let strict := { t with loader := { t.loader with image := some (parseImage (image.set 9 1)) } }
    s.anyEligible 0 = true ∧ strict.img.strict = true ∧ strict.anyEligible 2 = true ∧ strict.anyEligible 1 = false
    ∧ strict.pickClass = some (2, ⟨0, 0, 0⟩) ∧ t.firstOf [0] = some 0
    ∧ t.img.strict = false ∧ t.anyEligible 0 = false ∧ t.anyEligible 2 = true ∧ t.pickClass = some (2, ⟨0, 0, 0⟩)
    ∧ t.raisedCredit 2 = 2 ∧ t.addedWeight 2 = 2 ∧ base.pickClass = none := by decide +kernel
theorem witness_QueueTakesAndDisplaces :
    let full : Bus := { Bus.reset with queue := List.replicate 15 (.drop ⟨0, .trip⟩) ++ [.roll] }
    let stuck : Bus := { Bus.reset with queue := List.replicate 16 (.drop ⟨0, .trip⟩) }
    Bus.reset.size < 16 ∧ 16 ≤ full.size ∧ full.queue = List.replicate 15 (.drop ⟨0, .trip⟩) ++ .roll :: []
    ∧ Telegram.displaceable .roll = true ∧ Telegram.priority .answer < Telegram.priority .roll
    ∧ 16 ≤ stuck.size ∧ (∀ x ∈ stuck.queue, x.displaceable = false) := by decide +kernel
/-- A full queue gives up its youngest ROLL, ANSWER, BID or VETO, and nothing else. -/
theorem witness_displacing :
    let drops := List.replicate 14 (Telegram.drop ⟨0, .trip⟩)
    let b : Bus := { Bus.reset with queue := .veto ⟨1, 0, 3, .budget⟩ :: drops ++ [.answer] }
    b.intake (.veto ⟨1, 1, 3, .budget⟩)
      = .displacing .answer (.veto ⟨1, 0, 3, .budget⟩ :: .veto ⟨1, 1, 3, .budget⟩ :: drops) := by decide +kernel
theorem witness_ReceptionsLeaveTheRest : receptionSource (.purgeReceived 14 [3, 17, 65]) = some 14 := rfl

/-- A file of records that a reception, a line and a timer leave; what they may report, and the mode it is said in. -/
theorem witness_RecordsStay :
    let x : FaultRecord := ⟨⟨.startFail, some 1, none, some 1⟩, 12, 1, false, false⟩
    let y : FaultRecord := ⟨peerKey .peerSilent 3, 12, 1, true, false⟩
    let s := { base with faults := ⟨[x, y], false⟩ }
    .startFail ∉ reportKinds (.runReceived 1 [0, 1, 20, 2, 3, 0]) ∧ .divergence ∈ reportKinds (.runReceived 1 [])
    ∧ .startFail ∉ reportKinds (.sampleTimerExpiry .a 5#12) ∧ .peerSilent ∉ reportKinds (.overloadAsserted 0)
    ∧ x.key.pump ≠ some 0 ∧ y.key.peer ≠ some 1 ∧ s.ctl.mode ≠ .isolated
    ∧ (after (.runReceived 1 [0, 1, 20, 2, 3, 0]) s).faults.records.take 2 = [x, y]
    ∧ (after (.overloadAsserted 0) s).faults.records.take 2 = [x, y]
    ∧ (after (.startConfirmExpiry 0) ((put 0 .starting (some desc) s).modChan 0 (fun c => { c with
        startConfirm := some 99000 }))).faults.records.map FaultRecord.key
        = [x.key, y.key, ⟨.startFail, some 0, none, some 1⟩] := by decide +kernel
theorem witness_LinesAndTimersLeaveTheRest :
    let s := put 1 .stopping (some desc) (base.setLines 1 ⟨true, false, true⟩)
    let r := put 1 .running (some desc) (base.setLines 1 ⟨true, false, true⟩)
    let t := put 1 .tripped none base
    (s.chan 1).state ≠ .idle ∧ (s.chan 1).state ≠ .queued ∧ (s.chan 1).state.inContest = false ∧ s.lineQuiet 1
    ∧ (s.chan 1).state ≠ .running ∧ (r.chan 1).state = .running ∧ r.lineQuiet 1
    ∧ (t.chan 1).state = .tripped ∧ t.lineQuiet 1 := by unfold State.lineQuiet; decide +kernel
theorem witness_StepKeeps :
    base.TableInv ∧ base.OrphanInv ∧ base.faults.Wf ∧ base.CountInv ∧ base.MarksClear ∧ base.bus.Wf ∧ base.SlotInv
    ∧ base.RunLineInv ∧ base.LockoutInv ∧ base.RequestInv ∧ base.JudgingInv
    ∧ (fed loaded).InUseInv ∧ (fed loaded).FeedbackInv := by
  unfold State.InUseInv State.FeedbackInv State.TableInv State.OrphanInv FaultFile.Wf State.CountInv Counters.Wf creditInBounds State.MarksClear Bus.Wf
    State.SlotInv State.RunLineInv State.LockoutInv State.RequestInv State.JudgingInv
  decide +kernel
theorem witness_StepKeeps_one_contest : bidding.OneContestInv := by unfold State.OneContestInv; decide +kernel
theorem witness_StepKeepsAlarmLine : base.LoadingInv ∧ base.AlarmInv :=
  ⟨fun h => absurd h (by decide +kernel), by
    show base.alarm.driven = (base.faults.pending && !base.field.mute) ∧ base.alarm.pulseTimer = none
    decide +kernel⟩
theorem witness_OwnTelegramsReadBack :
    base.rollBody.claims.length ≤ 6 ∧ (started.rollBody.claims.map Descriptor.pump).Nodup
    ∧ (started.rollBody.claims.map Descriptor.load) = [15]
    ∧ (base.answerBody ⟨.roster, 0, 14⟩).content.length = 57
    ∧ decodeTelegram ((Sent.roll started.rollBody).bytes 2) = .rollReceived 2 started.rollBody.bytes
    ∧ decodeRoll started.rollBody.bytes = some started.rollBody := by decide +kernel

end Sys2Proof.Tests
end

section
/-! PROOFS. The claim table's roster after a reset, and the silence measure of a peer that is not heard (R13, R17). -/

namespace Sys2Proof.Machine

/-! ## What RESET and SILENCE_EXPIRY do -/

theorem exec_reset (a : Addr) (high : Bool) (s : State) :
    exec (.reset a high) s = .next (.afterReset s.field a high s.pending) := rfl

theorem exec_silenceExpiry (o : Station) (s : State) : exec (.silenceExpiry o) s = execSilenceExpiry o s := rfl

/-- An expiry does nothing where no silence is measured: the hearing of the peer is one condition of the measure
(R13). -/
theorem execSilenceExpiry_of_not_heard {o : Station} {s : State} (h : (s.rosterOf o).heard = false) :
    execSilenceExpiry o s = .next s := by
  simp [execSilenceExpiry, h]

/-! ## The roster after reset -/

theorem Claims.reset_roster_eq_replicate : Claims.reset.roster = Vector.replicate 14 RosterRecord.reset := rfl

/-- The own record is no exception (R17). -/
@[simp] theorem State.afterReset_rosterOf (field : FieldLines) (a : Addr) (high : Bool) (pending : List Instr)
    (o : Station) : (State.afterReset field a high pending).rosterOf o = RosterRecord.reset := by
  have hroster : (State.afterReset field a high pending).claims.roster = Vector.replicate 14 RosterRecord.reset :=
    Claims.reset_roster_eq_replicate
  simp [State.rosterOf, hroster]

/-- Settles O5: RESET fills every roster record with the reset record, and the silence measure asks for a peer that is
heard. -/
theorem rosterAfterReset : Obligations.RosterAfterReset := by
  unfold Obligations.RosterAfterReset
  constructor
  · intro a high s
    refine ⟨_, exec_reset a high s, fun o => ?_⟩
    exact State.afterReset_rosterOf s.field a high s.pending o
  · intro o s hheard
    rw [exec_silenceExpiry]
    exact execSilenceExpiry_of_not_heard hheard

end Sys2Proof.Machine
end

section
/-! PROOFS. A BID at a judging station: the six refusal tests in their order, the VETO of a refusal, the HELD entry of
an admission (R28 to R31). -/

namespace Sys2Proof.Machine

/-! ## The reception of a BID -/

theorem exec_bidReceived (src : Addr) (body : List Byte) (s : State) :
    exec (.bidReceived src body) s = execBidReceived src body s := rfl

theorem State.receive_of_receiverOn {s : State} (h : s.receiverOn = true) (src : Addr) (act : State → State) :
    s.receive src act = (act (s.accept src)).settle := if_pos h

/-- A well-formed BID of a pump-house station acts on the state that has heard it (R26, R27). -/
theorem exec_bidReceived_of_claim {src : Addr} {o : Station} {body : List Byte} {c : ClaimFields} {s : State}
    (hon : s.receiverOn = true) (ho : Addr.station? src = some o) (hc : decodeClaim body = some c) :
    exec (.bidReceived src body) s = .next ((s.accept src).onBid o c).settle := by
  rw [exec_bidReceived, execBidReceived, State.receive_of_receiverOn hon]
  simp [onClaim, ho, hc]

theorem State.onBid_of_judging {s : State} (h : s.judging = true) (o : Station) (c : ClaimFields) :
    s.onBid o c = s.judgeBid o c := if_pos h

theorem State.judgeBid_of_refused {s : State} {o : Station} {c : ClaimFields} {r : RefusalReason}
    (h : s.judge o c = some r) : s.judgeBid o c = (s.refusalFault o c r).handIn (.veto ⟨o, c.pump, c.bid, r⟩) := by
  simp [State.judgeBid, h]

theorem State.judgeBid_of_admitted {s : State} {o : Station} {c : ClaimFields} (h : s.judge o c = none) :
    s.judgeBid o c = s.onTable (State.insertClaim o c.pump (heldOf c)) := by
  simp [State.judgeBid, h]

/-! ## The sender's record once it is heard -/

/-- The test of a digest mismatch, whichever way it goes, leaves the claim table alone (R160 to R162). -/
theorem State.testMismatch_claims (s : State) : s.testMismatch.claims = s.claims := by
  unfold State.testMismatch
  split
  · rfl
  · next a _ _ =>
    calc (s.startMismatch a).claims
      _ = (State.reportCondition (peerKey .digestMismatch a.addr) (s.setMismatch (some a))).claims :=
        (ChanFrame.withdrawAll _).claims
      _ = s.claims := (FileFrame.reportCondition _ _).claims
  · next a b _ _ =>
    split
    · rfl
    · exact (FileFrame.reportCondition _ _).claims.trans (FileFrame.reportEnd _ _).claims
  · next a _ _ =>
    exact (State.shedIfOver_claims _).trans (FileFrame.reportEnd _ _).claims

theorem State.unsilence_rosterOf (a o : Station) (s : State) : (s.unsilence a).rosterOf o = s.rosterOf o := by
  have hclaims : (s.unsilence a).claims = (s.markOrphans a false).claims :=
    (State.testMismatch_claims _).trans (FileFrame.reportEnd _ _).claims
  simp only [State.rosterOf, hclaims]
  rfl

/-- The record of a sender is not silent once its telegram is heard (R11, R14). -/
theorem State.accept_rosterOf_silent {src : Addr} {o : Station} (ho : Addr.station? src = some o) (s : State) :
    ((s.accept src).rosterOf o).silent = false := by
  simp only [State.accept, State.hear, ho, State.hearStation]
  split
  · rw [State.unsilence_rosterOf, State.setRoster_rosterOf_self]
  · rw [State.setRoster_rosterOf_self]

/-! ## The six tests (R28) -/

theorem State.entry_isSome_iff (s : State) (o : Station) (p : Pump) :
    (s.entry o p).isSome = true ↔ ∃ e ∈ s.claims.entries, e.owner = o ∧ e.pump = p := by
  simp [State.entry, findClaim, Entry.isFor_iff]

theorem Entry.unsettled_iff (e : Entry) : e.unsettled = true ↔ e.state = .held ∨ e.state = .starting := by
  cases h : e.state <;> simp [Entry.unsettled, h]

theorem State.busy_iff (s : State) (m : Main) :
    s.busy m = true ↔ ∃ e ∈ s.claims.entries, e.main = m ∧ (e.state = .held ∨ e.state = .starting) := by
  simp [State.busy, Entry.unsettled_iff]

/-- The judge's tests in their order, each said of the entries and the image. -/
theorem State.judge_eq_ite (s : State) (o : Station) (c : ClaimFields) :
    s.judge o c =
      if ∃ e ∈ s.claims.entries, e.owner = o ∧ e.pump = c.pump then some .duplicate
      else if s.img.member c.main o = false then some .membership
      else if ∃ e ∈ s.claims.entries, e.main = c.main ∧ (e.state = .held ∨ e.state = .starting) then some .mainBusy
      else if s.img.cap < s.loadSum + c.load then some .budget
      else if c.cls ≠ 0 ∧ s.img.cap - s.img.reserve < s.loadSum + c.load then some .reserve
      else if 48 ≤ s.claims.entries.length then some .tableFull
      else none := by
  have hfull : (!s.hasRoom) = true ↔ 48 ≤ s.claims.entries.length := by
    rw [Bool.not_eq_true', ← Bool.not_eq_true, s.hasRoom_iff, Nat.not_lt]
  simp only [State.judge, s.entry_isSome_iff, s.busy_iff, s.countedLoad_eq_loadSum, hfull, Bool.not_eq_true',
    Bool.and_eq_true, decide_eq_true_eq]

/-! ## A refused bid -/

theorem mem_insertTelegram_self (t : Telegram) (q : List Telegram) : t ∈ insertTelegram t q := by
  induction q with
  | nil => simp [insertTelegram]
  | cons x xs ih =>
    unfold insertTelegram
    split
    · simp
    · exact List.mem_cons_of_mem _ ih

/-- A queue with room takes every telegram (R133, R135). -/
theorem State.waiting_handIn {s : State} (h : s.roomy) (t : Telegram) : (s.handIn t).waiting t := by
  have htaken : s.bus.intake t = .taken (insertTelegram t s.bus.queue) := if_pos h
  have hqueue : (s.handIn t).bus.queue = insertTelegram t s.bus.queue := by simp [State.handIn, htaken, State.setQueue]
  rw [State.waiting, hqueue]
  exact mem_insertTelegram_self t s.bus.queue

theorem State.insertFails_entries (s : State) : s.insertFails.claims.entries = s.claims.entries := by
  rw [State.insertFails, (FileFrame.reportCondition _ _).claims]

/-- A refusal may record a fault, and no fault touches the entries (R4, R29). -/
theorem State.refusalFault_entries (o : Station) (c : ClaimFields) (r : RefusalReason) (s : State) :
    (s.refusalFault o c r).claims.entries = s.claims.entries := by
  cases r with
  | membership => exact congrArg Claims.entries (FileFrame.reportEvent _ s).claims
  | tableFull => exact s.insertFails_entries
  | duplicate => rfl
  | mainBusy => rfl
  | budget => rfl
  | reserve => rfl

theorem bidRefused_of_judge {src : Addr} {o : Station} {body : List Byte} {c : ClaimFields} {r : RefusalReason}
    {s : State} (hon : s.receiverOn = true) (ho : Addr.station? src = some o) (hc : decodeClaim body = some c)
    (hjudging : (s.accept src).judging = true) (hr : (s.accept src).judge o c = some r) :
    BidRefused src o body c r s (s.accept src) := by
  refine ⟨_, exec_bidReceived_of_claim hon ho hc, ?_⟩
  rw [State.onBid_of_judging hjudging, State.judgeBid_of_refused hr]
  constructor
  · rw [(ChanFrame.handIn _ _).claims, State.refusalFault_entries]
  · intro hroomy
    have hbus : ((s.accept src).refusalFault o c r).bus = (s.accept src).bus := (TableFrame.refusalFault o c r _).bus
    exact State.waiting_handIn (by rwa [State.roomy, hbus]) _

/-! ## An admitted bid -/

theorem mem_insertEntry_self (e : Entry) (es : List Entry) : e ∈ insertEntry e es := by
  induction es with
  | nil => simp [insertEntry]
  | cons x xs ih =>
    unfold insertEntry
    split
    · simp
    · split
      · simp
      · exact List.mem_cons_of_mem _ ih

theorem eq_or_mem_of_mem_insertEntry {e x : Entry} {es : List Entry} (h : x ∈ insertEntry e es) : x = e ∨ x ∈ es := by
  induction es with
  | nil => simpa [insertEntry] using h
  | cons y ys ih =>
    unfold insertEntry at h
    split at h
    · exact List.mem_cons.1 h
    · split at h
      · exact (List.mem_cons.1 h).imp_right (List.mem_cons_of_mem y)
      · rcases List.mem_cons.1 h with rfl | h
        · exact .inr List.mem_cons_self
        · exact (ih h).imp_right (List.mem_cons_of_mem y)

/-- An entry inserted for a claim that had none is the one found for it, in whatever order the entries stand: no other
is for that claim. -/
theorem findClaim_insertEntry_of_absent {e : Entry} {es : List Entry}
    (h : ¬ ∃ x ∈ es, x.owner = e.owner ∧ x.pump = e.pump) :
    findClaim (insertEntry e es) e.owner e.pump = some e := by
  cases hfound : findClaim (insertEntry e es) e.owner e.pump with
  | none => exact absurd ⟨rfl, rfl⟩ (findClaim_none hfound e (mem_insertEntry_self e es))
  | some x =>
    obtain ⟨hmem, hkey⟩ := findClaim_some hfound
    rcases eq_or_mem_of_mem_insertEntry hmem with rfl | hold
    · rfl
    · exact absurd ⟨x, hold, hkey⟩ h

theorem State.onTable_entry (act : State → State) (s : State) (o : Station) (p : Pump) :
    (s.onTable act).entry o p = (act s).entry o p :=
  congrArg (findClaim · o p) (State.onTable_entries act s)

/-- A claim inserted where there is room and none of its kind stands in the table under its owner's silent mark (R3). -/
theorem State.insertClaim_entry_of_absent {s : State} {o : Station} {p : Pump} (hroom : s.hasRoom = true)
    (habsent : ¬ ∃ e ∈ s.claims.entries, e.owner = o ∧ e.pump = p) (f : EntryFields) :
    (s.insertClaim o p f).entry o p = some (f.entry o p (s.rosterOf o).silent) := by
  rw [State.insertClaim, if_pos hroom]
  exact findClaim_insertEntry_of_absent habsent

/-- What an admission rests on: the claim is new and the table has room (R28). -/
theorem State.absent_and_hasRoom_of_judge_none {s : State} {o : Station} {c : ClaimFields} (h : s.judge o c = none) :
    (¬ ∃ e ∈ s.claims.entries, e.owner = o ∧ e.pump = c.pump) ∧ s.hasRoom = true := by
  rw [State.judge_eq_ite] at h
  split_ifs at h with hdup _ _ _ _ hfull
  exact ⟨hdup, s.hasRoom_iff.2 (Nat.not_le.1 hfull)⟩

theorem bidAdmitted_of_judge {src : Addr} {o : Station} {body : List Byte} {c : ClaimFields} {s : State}
    (hon : s.receiverOn = true) (ho : Addr.station? src = some o) (hc : decodeClaim body = some c)
    (hjudging : (s.accept src).judging = true) (hnone : (s.accept src).judge o c = none) :
    BidAdmitted src o body c s := by
  refine ⟨_, exec_bidReceived_of_claim hon ho hc, ?_⟩
  obtain ⟨habsent, hroom⟩ := State.absent_and_hasRoom_of_judge_none hnone
  rw [State.onBid_of_judging hjudging, State.judgeBid_of_admitted hnone, State.onTable_entry,
    State.insertClaim_entry_of_absent hroom habsent, State.accept_rosterOf_silent ho]
  rfl

/-! ## The statement -/

/-- Settles O18: the named conditions are the tests of `State.judge_eq_ite`, so each clause is one branch of the
judge. -/
theorem refusalTestsInOrder : Obligations.RefusalTestsInOrder := by
  unfold Obligations.RefusalTestsInOrder
  rintro src o body c s _ dup mem busy budget reserve full hon ho hc rfl hjudging hdup hmem hbusy hbudget hreserve hfull
  rw [hdup, hmem, hbusy, hbudget, hreserve, hfull]
  have hjudge := State.judge_eq_ite (s.accept src) o c
  unfold State.loadSum at hjudge
  have refused {r : RefusalReason} (h : (s.accept src).judge o c = some r) :
      BidRefused src o body c r s (s.accept src) := bidRefused_of_judge hon ho hc hjudging h
  refine ⟨fun d => refused ?_, fun d m => refused ?_, fun d m b => refused ?_, fun d m b g => refused ?_,
    fun d m b g r => refused ?_, fun d m b g r f => refused ?_,
    fun d m b g r f => bidAdmitted_of_judge hon ho hc hjudging ?_⟩
  · rw [hjudge, if_pos d]
  · rw [hjudge, if_neg d, if_pos m]
  · rw [hjudge, if_neg d, if_neg m, if_pos b]
  · rw [hjudge, if_neg d, if_neg m, if_neg b, if_pos g]
  · rw [hjudge, if_neg d, if_neg m, if_neg b, if_neg g, if_pos r]
  · rw [hjudge, if_neg d, if_neg m, if_neg b, if_neg g, if_neg r, if_pos f]
  · rw [hjudge, if_neg d, if_neg m, if_neg b, if_neg g, if_neg r, if_neg f]

end Sys2Proof.Machine
end

section
/-! PROOFS. A level sample: its range and its conversion (R108), and the window it enters (R109, R110). -/

namespace Sys2Proof.Machine

/-! ## The range and the conversion (R108) -/

theorem sampleInRange_iff (x : BitVec 12) : sampleInRange x = true ↔ 64 ≤ x.toNat ∧ x.toNat ≤ 4031 := by
  simp [sampleInRange]

/-- An in-range sample lies at most the 3967 counts of the whole span above the lowest. -/
theorem sampleLevel_le_span {x : BitVec 12} (h : sampleInRange x = true) (span : Nat) : sampleLevel span x ≤ span := by
  have hcounts : x.toNat - 64 ≤ 3967 := by
    obtain ⟨_, htop⟩ := (sampleInRange_iff x).1 h
    omega
  exact Nat.div_le_of_le_mul (Nat.mul_le_mul_right span hcounts)

theorem sampleLevel_lowest (span : Nat) : sampleLevel span 64#12 = 0 := by simp [sampleLevel]

theorem sampleLevel_highest (span : Nat) : sampleLevel span 4031#12 = span :=
  Nat.mul_div_cancel_left span (by decide : 0 < 3967)

@[simp] theorem pushLevel_getLast? (n : Nat) (w : List Nat) : (pushLevel n w).getLast? = some n := by
  simp [pushLevel]

/-! ## Reading an input -/

@[simp] theorem State.setInput_input_self (i : LevelInput) (c : LevelChannel) (s : State) :
    (s.setInput i c).input i = c := by
  cases i <;> rfl

@[simp] theorem State.setInput_span (i j : LevelInput) (c : LevelChannel) (s : State) :
    (s.setInput i c).span j = s.span j := by
  cases i <;> rfl

@[simp] theorem State.reach_span (m : Nat) (i : LevelInput) (s : State) : (s.reach m).span i = s.span i := rfl

@[simp] theorem State.reach_input (m : Nat) (i : LevelInput) (s : State) : (s.reach m).input i = s.input i := rfl

/-! ## What leaves both inputs alone -/

/-- The entry into lockout acts at a channel as a stop or a lost request does (R81). -/
theorem ChanFrame.lockoutAt (p : Pump) (s : State) : ChanFrame s (s.lockoutAt p) := by
  have hlost : ChanFrame s ((s.loseRequest p).available p) :=
    (ChanFrame.loseRequest p s).trans (ChanFrame.available p _)
  unfold State.lockoutAt
  split
  · exact ChanFrame.stop p _ s
  · exact ChanFrame.stop p _ s
  · exact hlost
  · exact hlost
  · exact hlost
  · exact ChanFrame.refl s

/-- Both level inputs are as they were. -/
def SameInputs (s t : State) : Prop := ∀ i, t.input i = s.input i

namespace SameInputs

theorem refl (s : State) : SameInputs s s := fun _ => rfl

theorem trans {s t u : State} (h : SameInputs s t) (k : SameInputs t u) : SameInputs s u :=
  fun i => (k i).trans (h i)

theorem ite {s a b : State} {c : Prop} [Decidable c] (ha : SameInputs s a) (hb : SameInputs s b) :
    SameInputs s (if c then a else b) := by
  split
  · exact ha
  · exact hb

/-- The channels write of the level monitor the freeze alone (R112). -/
theorem ofChan {s t : State} (h : ChanFrame s t) : SameInputs s t := by
  intro i
  simp only [State.input]
  rw [h.levels]

theorem ofFile {s t : State} (h : FileFrame s t) : SameInputs s t := by
  intro i
  simp only [State.input, h.levels]

/-! ### Dry-run lockout (5.4) -/

theorem enterLockout (s : State) : SameInputs s s.enterLockout := by
  unfold State.enterLockout
  dsimp only
  have hmarks : SameInputs s { s with levels := { s.levels with lockout := true, lockoutUnrecorded := false } } :=
    fun _ => rfl
  exact ((hmarks.trans (ofFile (FileFrame.reportCondition _ _))).trans
    (ofChan (ChanFrame.foldl (fun s p => ChanFrame.lockoutAt p s) allPumps _))).trans (ofChan (ChanFrame.noteEval _))

theorem endLockout (s : State) : SameInputs s s.endLockout := by
  have hmarks : SameInputs s { s with levels := { s.levels with lockout := false, lockoutUnrecorded := false } } :=
    fun _ => rfl
  exact (hmarks.trans (ofFile (FileFrame.reportEnd _ _))).trans (ofChan (ChanFrame.noteEval _))

theorem testLockout (s : State) : SameInputs s s.testLockout := by
  unfold State.testLockout
  split
  · exact enterLockout s
  · exact ite (enterLockout s) (refl s)
  · exact ite (endLockout s) (refl s)
  · exact refl s

/-! ### The delivery level (5.5, 5.6) -/

theorem newDelivery (s : State) : SameInputs s s.newDelivery :=
  ofChan ((ChanFrame.noteEval s).trans (ChanFrame.testStops _))

theorem reachBlindLimit (s : State) : SameInputs s s.reachBlindLimit := by
  have hmark : SameInputs s { s with levels := { s.levels with blindReached := true } } := fun _ => rfl
  exact hmark.trans (ofChan (ChanFrame.testStops _))

theorem staleOnset (s : State) : SameInputs s s.staleOnset := by
  unfold State.staleOnset
  dsimp only
  have hmarks : SameInputs s
      { s with levels := { s.levels with staleUnrecorded := false, blindTimer := some s.now } } := fun _ => rfl
  have hstale := (hmarks.trans (ofFile (FileFrame.reportCondition (peerKey .remoteLevelStale s.levelPeer) _))).trans
    (newDelivery _)
  exact ite (hstale.trans (reachBlindLimit _)) hstale

theorem staleEnd (s : State) : SameInputs s s.staleEnd := by
  have hmarks : SameInputs s
      { s with levels := { s.levels with staleUnrecorded := false, blindTimer := none, blindReached := false } } :=
    fun _ => rfl
  exact (hmarks.trans (ofFile (FileFrame.reportEnd _ _))).trans (newDelivery _)

theorem deliverySet (was : Bool) (s : State) : SameInputs s (s.deliverySet was) := by
  unfold State.deliverySet
  split
  · exact staleOnset s
  · exact refl s
  · exact newDelivery s
  · exact (staleEnd s).trans (newDelivery _)

end SameInputs

/-! ## An output handed on -/

/-- What follows an input's new output: for A the lockout test, for B the delivery level where its source is local
(R113, R117). -/
def State.followOutput (i : LevelInput) (was : Bool) (s : State) : State :=
  match i with
  | .a => s.testLockout
  | .b => if s.img.localSource then s.deliverySet was else s

theorem SameInputs.followOutput (i : LevelInput) (was : Bool) (s : State) : SameInputs s (s.followOutput i was) := by
  cases i with
  | a => exact SameInputs.testLockout s
  | b => exact SameInputs.ite (SameInputs.deliverySet was s) (SameInputs.refl s)

theorem State.output_eq (i : LevelInput) (out : Option Nat) (s : State) :
    s.output i out = (s.setInput i { s.input i with output := out }).followOutput i s.delivery.isSome := by
  cases i <;> rfl

theorem State.output_input (i : LevelInput) (out : Option Nat) (s : State) :
    (s.output i out).input i = { s.input i with output := out } := by
  rw [State.output_eq, SameInputs.followOutput, State.setInput_input_self]

/-! ## The window after a sample -/

theorem State.refill_window (i : LevelInput) (s : State) : ((s.refill i).input i).window = (s.input i).window := by
  unfold State.refill
  split
  · rw [SameInputs.ofFile (FileFrame.reportEnd _ _), State.setInput_input_self]
  · rfl

/-- An in-range sample's level enters the window, whether or not a new output follows (R109). -/
theorem State.goodSample_window (i : LevelInput) (x : BitVec 12) (s : State) :
    ((s.goodSample i x).input i).window = pushLevel (sampleLevel (s.span i) x) (s.input i).window := by
  unfold State.goodSample
  dsimp only
  split
  · rw [State.output_input, State.refill_window, State.setInput_input_self]
  · rw [State.refill_window, State.setInput_input_self]

/-- The first and the second out-of-range sample in a row are counted, and that is all (R110). -/
theorem State.badSample_input_of_lt {i : LevelInput} {s : State} (h : (s.input i).outOfRange + 1 < 3) :
    (s.badSample i).input i = { s.input i with outOfRange := (s.input i).outOfRange + 1 } := by
  have hcounted : s.badSample i = s.setInput i { s.input i with outOfRange := (s.input i).outOfRange + 1 } := if_pos h
  rw [hcounted, State.setInput_input_self]

/-- An input failed: emptied and invalid, LEVEL_SENSOR reported where it was valid (R110). -/
def State.failInput (i : LevelInput) (s : State) : State :=
  let t := s.setInput i { s.input i with outOfRange := 0, window := [], output := none, valid := false }
  if (s.input i).valid then t.reportCondition (t.sensorKey i) else t

theorem State.failInput_input (i : LevelInput) (s : State) :
    (s.failInput i).input i = { s.input i with outOfRange := 0, window := [], output := none, valid := false } := by
  unfold State.failInput
  dsimp only
  split
  · rw [SameInputs.ofFile (FileFrame.reportCondition _ _), State.setInput_input_self]
  · rw [State.setInput_input_self]

/-- The third out-of-range sample in a row fails the input, and its lost output is handed on (R110). -/
theorem State.badSample_of_le {i : LevelInput} {s : State} (h : 3 ≤ (s.input i).outOfRange + 1) :
    s.badSample i = (s.failInput i).followOutput i s.delivery.isSome := by
  refine (if_neg (Nat.not_lt.2 h)).trans ?_
  cases i <;> rfl

theorem State.badSample_input_of_le {i : LevelInput} {s : State} (h : 3 ≤ (s.input i).outOfRange + 1) :
    (s.badSample i).input i = { s.input i with outOfRange := 0, window := [], output := none, valid := false } := by
  rw [State.badSample_of_le h, SameInputs.followOutput, State.failInput_input]

theorem State.badSample_window (i : LevelInput) (s : State) :
    ((s.badSample i).input i).window = (s.input i).window ∨ ((s.badSample i).input i).window = [] := by
  rcases Nat.lt_or_ge ((s.input i).outOfRange + 1) 3 with hfew | hthird
  · exact .inl (by rw [State.badSample_input_of_lt hfew])
  · exact .inr (by rw [State.badSample_input_of_le hthird])

theorem State.takeSample_window_of_inRange {x : BitVec 12} (h : sampleInRange x = true) (i : LevelInput) (s : State) :
    ((s.takeSample i x).input i).window = pushLevel (sampleLevel (s.span i) x) (s.input i).window := by
  rw [State.takeSample, if_pos h, State.goodSample_window, State.setInput_span, State.setInput_input_self]

theorem State.takeSample_window_of_not_inRange {x : BitVec 12} (h : ¬ sampleInRange x = true) (i : LevelInput)
    (s : State) : ((s.takeSample i x).input i).window = (s.input i).window ∨
      ((s.takeSample i x).input i).window = [] := by
  have hbad := State.badSample_window i (s.setInput i { s.input i with sampleTimer := some s.now })
  rw [State.setInput_input_self] at hbad
  rwa [State.takeSample, if_neg h]

/-! ## The statement -/

/-- A running sample timer's expiry takes the sample at its moment (R107). -/
theorem exec_sampleTimerExpiry_of_running {i : LevelInput} {t : Nat} {s : State}
    (h : (s.input i).sampleTimer = some t) (x : BitVec 12) :
    exec (.sampleTimerExpiry i x) s = .next ((s.reach (t + Config.samplePeriod)).takeSample i x).settle := by
  have hexec : exec (.sampleTimerExpiry i x) s = execSampleTimerExpiry i x s := rfl
  rw [hexec, execSampleTimerExpiry, h, State.expire]

/-- Settles O37: in range a sample is at most the whole span above the lowest, and the window after it is
`pushLevel` of its level; out of range it is only counted or empties the window. -/
theorem sampleConversion : Obligations.SampleConversion := by
  unfold Obligations.SampleConversion
  refine ⟨fun span x => ⟨sampleInRange_iff x, fun hin => ⟨rfl, sampleLevel_le_span hin span, ?_⟩⟩,
    fun span => ⟨sampleLevel_lowest span, sampleLevel_highest span⟩, by decide, fun i x t s htimer => ?_⟩
  · exact (sampleLevel_le_span hin span).trans
  · refine ⟨_, exec_sampleTimerExpiry_of_running htimer x, fun hlow hhigh => ?_, fun hout => ?_⟩
    · rw [State.takeSample_window_of_inRange ((sampleInRange_iff x).2 ⟨hlow, hhigh⟩), pushLevel_getLast?,
        State.reach_span]
      rfl
    · have hrange : ¬ sampleInRange x = true := by
        rw [sampleInRange_iff]
        omega
      exact State.takeSample_window_of_not_inRange hrange i (s.reach _)

end Sys2Proof.Machine
end

section
/-! PROOFS. An acknowledgement of the fault file, by ACK or by an obeyed CLEAR: the file, the trip marks, the alarm
line, and all that stays (R74, R170 to R173). -/

namespace Sys2Proof.Machine

/-! ## The file acknowledged (R170) -/

/-- An acknowledgement takes the pending condition away (R173). -/
@[simp] theorem FaultFile.acknowledge_pending (f : FaultFile) : f.acknowledge.pending = false := by
  simp [FaultFile.acknowledge, FaultFile.pending]

/-- A change of the fault file writes the file and the alarm line, and nothing else. -/
theorem FileFrame.eq_with {s t : State} (h : FileFrame s t) : t = { s with faults := t.faults, alarm := t.alarm } := by
  cases t
  simp only [State.mk.injEq, true_and]
  exact ⟨h.now, h.field, h.loader, h.ctl, h.claims, h.pumps, h.sched, h.levels, h.bus, h.resp, h.pending⟩

/-! ## An acknowledgement at the station -/

@[simp] theorem State.acknowledge_faults (s : State) : s.acknowledge.faults = s.faults.acknowledge :=
  State.changeFile_faults _ s

theorem Channel.acknowledge_eq (c : Channel) :
    c.acknowledge = { c with tripAck := c.tripAck || decide (c.state = .tripped) } := by
  unfold Channel.acknowledge
  split <;> simp [*]

/-- Each channel takes the acknowledgement for itself (R74). -/
theorem State.acknowledge_chan (p : Pump) (s : State) :
    s.acknowledge.chan p = { s.chan p with tripAck := (s.chan p).tripAck || decide ((s.chan p).state = .tripped) } :=
  calc s.acknowledge.chan p
    _ = ((s.changeFile FaultFile.acknowledge).chan p).acknowledge := mapSix_get _ _ p
    _ = (s.chan p).acknowledge := by rw [State.chan, (FileFrame.changeFile _ s).pumps, State.chan]
    _ = _ := Channel.acknowledge_eq _

/-- Beside the fault file, the alarm line and the channels an acknowledgement writes nothing. -/
theorem State.acknowledge_eq_with (s : State) :
    s.acknowledge = { s with faults := s.acknowledge.faults, alarm := s.acknowledge.alarm,
                             pumps := { s.pumps with chan := s.acknowledge.pumps.chan } } := by
  have hfile := (FileFrame.changeFile FaultFile.acknowledge s).eq_with
  unfold State.acknowledge
  dsimp only
  rw [hfile]

/-- The line follows the file; the marks at the channels, set after it, do not touch it (R172). -/
theorem State.acknowledge_alarmFollows (s : State) : AlarmFollows s s.acknowledge :=
  State.changeFile_alarm FaultFile.acknowledge s

/-- The line is released in LEVEL: nothing is pending any more (R175). -/
theorem State.acknowledge_alarm_of_level {s : State} (h : s.alarm.mode = .level) :
    s.acknowledge.alarm = { s.alarm with driven := false } := by
  obtain ⟨hlevel, -⟩ := s.acknowledge_alarmFollows
  simpa using hlevel h

/-- In PULSE an end of the pending condition does not move the line (R176). -/
theorem State.acknowledge_alarm_of_pulse {s : State} (h : s.alarm.mode = .pulse) :
    s.acknowledge.alarm = s.alarm := by
  obtain ⟨-, hpulse⟩ := s.acknowledge_alarmFollows
  obtain ⟨-, hstays⟩ := hpulse h
  exact hstays (.inr (by simp))

/-! ## The two sources (R171) -/

theorem exec_ackRises (s : State) : exec .ackRises s = .next s.acknowledge.settle := rfl

theorem exec_clearReceived (src : Addr) (body : List Byte) (s : State) :
    exec (.clearReceived src body) s = execClearReceived src body s := rfl

/-! The hearing of the sender leaves the straps and the image alone, so the tests of R179 and R180 may be made on the
state before the reception. -/

theorem State.shedIfOver_loader (s : State) : s.shedIfOver.loader = s.loader := by
  unfold State.shedIfOver State.shed
  split
  · split
    · rfl
    · split
      · exact (State.shedStop_frame _ s).loader
      · rfl
  · rfl

theorem State.testMismatch_loader (s : State) : s.testMismatch.loader = s.loader := by
  unfold State.testMismatch
  split
  · rfl
  · next a _ _ =>
    calc (s.startMismatch a).loader
      _ = (State.reportCondition (peerKey .digestMismatch a.addr) (s.setMismatch (some a))).loader :=
        (ChanFrame.withdrawAll _).loader
      _ = s.loader := (FileFrame.reportCondition _ _).loader
  · split
    · rfl
    · exact (FileFrame.reportCondition _ _).loader.trans (FileFrame.reportEnd _ _).loader
  · exact (State.shedIfOver_loader _).trans (FileFrame.reportEnd _ _).loader

theorem State.hearStation_loader (a : Station) (s : State) : (s.hearStation a).loader = s.loader := by
  unfold State.hearStation
  dsimp only
  split
  · exact (State.testMismatch_loader _).trans (FileFrame.reportEnd _ _).loader
  · rfl

@[simp] theorem State.accept_loader (src : Addr) (s : State) : (s.accept src).loader = s.loader := by
  unfold State.accept State.hear
  split
  · exact State.hearStation_loader _ _
  · rfl

@[simp] theorem State.accept_img (src : Addr) (s : State) : (s.accept src).img = s.img := by simp [State.img]

@[simp] theorem State.accept_addressed (src : Addr) (s : State) (t : Target) :
    (s.accept src).addressed t = s.addressed t := by
  simp [State.addressed]

/-- An order with the right target and site code is obeyed (R179, R181). -/
theorem onOrder_of_obeyed {fields : Option (OrderFields Target)} {f : OrderFields Target} {s : State}
    (hfields : fields = some f) (htarget : s.addressed f.target = true) (hcode : f.siteCode = s.img.siteCode)
    (src : Addr) (act : State → State) : onOrder src fields act s = act s := by
  simp [onOrder, State.siteChecked, hfields, htarget, hcode]

/-- An obeyed CLEAR acknowledges the file as it stands once the sender is heard (R183). -/
theorem exec_clearReceived_of_obeyed {src : Addr} {body : List Byte} {f : OrderFields Target} {s : State}
    (hon : s.receiverOn = true) (hbody : decodeOrder body = some f) (htarget : s.addressed f.target = true)
    (hcode : f.siteCode = s.img.siteCode) :
    exec (.clearReceived src body) s = .next (s.accept src).acknowledge.settle := by
  rw [exec_clearReceived, execClearReceived, State.receive_of_receiverOn hon,
    onOrder_of_obeyed hbody (by rwa [State.accept_addressed]) (by rwa [State.accept_img])]

/-! ## The statement -/

/-- Settles O29: ACK and an obeyed CLEAR both answer the settling of `State.acknowledge`, and the lemmas above say what
that writes. -/
theorem acknowledgementClearsFile : Obligations.AcknowledgementClearsFile := by
  unfold Obligations.AcknowledgementClearsFile
  constructor
  · intro s
    exact ⟨s.acknowledge, exec_ackRises s, s.acknowledge_faults, fun p => s.acknowledge_chan p, s.acknowledge_eq_with,
      State.acknowledge_alarm_of_level, State.acknowledge_alarm_of_pulse⟩
  · rintro src body f s u hon hbody htarget hcode rfl
    exact ⟨_, exec_clearReceived_of_obeyed hon hbody htarget hcode, State.acknowledge_faults _,
      fun p => State.acknowledge_chan p _, State.acknowledge_eq_with _⟩

end Sys2Proof.Machine
end
